-- ==== Sys2Proof/Word.lean ====
section
/-! DEFINITION. The two widths of the hardware (00_scope.md R5): 8-bit data, 16-bit addresses. -/

namespace Sys2Proof

/-- R5: the data width, of A, X, Y, SP and P. -/
abbrev Byte := BitVec 8

/-- R5: the address and PC width. -/
abbrev Word := BitVec 16

end Sys2Proof
end

