-- ==== Sys2Proof/Config.lean ====
section
/-! DEFINITION. The implementation parameters of 00_scope.md R5 that change what an instruction does, and the
values this hardware takes. -/

namespace Sys2Proof

/-- R5: the parameters a model may take as arguments.
CYCLE_COUNTER_WIDTH is unbounded (log 12); BUS is the state's `ram` and `answers` (log 2). -/
structure Config where
  /-- DECIMAL_ENABLED (R160, D4): whether P.D changes ADC and SBC. -/
  decimalEnabled : Bool
  /-- BRK_RETURN_OFFSET (R254, D5): BRK pushes the address of its opcode plus this. -/
  brkReturnOffset : Word
  deriving DecidableEq, Repr

/-- R5: the values of this hardware, DECIMAL_ENABLED = false and BRK_RETURN_OFFSET = 2. -/
def Config.hardware : Config := { decimalEnabled := false, brkReturnOffset := 2 }

@[simp] theorem Config.hardware_decimalEnabled : Config.hardware.decimalEnabled = false := rfl
@[simp] theorem Config.hardware_brkReturnOffset : Config.hardware.brkReturnOffset = 2 := rfl

end Sys2Proof
end

