-- ==== Sys2Proof/Syntax.lean ====
section
/-! DEFINITION. The instructions as syntax: the 56 mnemonics and 13 addressing modes of 30_encoding.md, an operand
as its mode with its operand bytes assembled, and `Instr`, one constructor per row of the opcode table. -/

namespace Sys2Proof

/-- R1, R74: the 56 mnemonics, named as the instruction rules' files group them. -/
inductive Mnemonic where
  | lda | ldx | ldy | sta | stx | sty
  | tax | tay | txa | tya | tsx | txs
  | adc | sbc
  | and | ora | eor
  | asl | lsr | rol | ror
  | inc | dec | inx | iny | dex | dey
  | cmp | cpx | cpy | bit
  | bcc | bcs | beq | bne | bmi | bpl | bvc | bvs
  | clc | cld | cli | clv | sec | sed | sei
  | pha | pla | php | plp
  | jmp | jsr | rts | brk | rti | nop
  deriving DecidableEq, Repr

/-- R71: the thirteen addressing modes. -/
inductive Mode where
  | acc | impl | imm | zp | zpX | zpY | abs | absX | absY | ind | indX | indY | rel
  deriving DecidableEq, Repr

/-- R71, R72: an addressing mode together with its operand: no byte, one byte `b`, or the little-endian word `w`. -/
inductive Operand where
  | acc
  | impl
  | imm (b : Byte)
  | zp (b : Byte)
  | zpX (b : Byte)
  | zpY (b : Byte)
  | abs (w : Word)
  | absX (w : Word)
  | absY (w : Word)
  | ind (w : Word)
  | indX (b : Byte)
  | indY (b : Byte)
  | rel (b : Byte)
  deriving DecidableEq, Repr

/-- The addressing mode of an operand. -/
def Operand.mode : Operand → Mode
  | .acc => .acc
  | .impl => .impl
  | .imm _ => .imm
  | .zp _ => .zp
  | .zpX _ => .zpX
  | .zpY _ => .zpY
  | .abs _ => .abs
  | .absX _ => .absX
  | .absY _ => .absY
  | .ind _ => .ind
  | .indX _ => .indX
  | .indY _ => .indY
  | .rel _ => .rel

/-- R74: one constructor per row of the opcode table.  A mnemonic with one row keeps its bare name; otherwise the
suffix names the row's mode. -/
inductive Instr where
  -- R141 to R146: loads and stores
  | ldaImm (b : Byte)
  | ldaZp (b : Byte)
  | ldaZpX (b : Byte)
  | ldaAbs (w : Word)
  | ldaAbsX (w : Word)
  | ldaAbsY (w : Word)
  | ldaIndX (b : Byte)
  | ldaIndY (b : Byte)
  | ldxImm (b : Byte)
  | ldxZp (b : Byte)
  | ldxZpY (b : Byte)
  | ldxAbs (w : Word)
  | ldxAbsY (w : Word)
  | ldyImm (b : Byte)
  | ldyZp (b : Byte)
  | ldyZpX (b : Byte)
  | ldyAbs (w : Word)
  | ldyAbsX (w : Word)
  | staZp (b : Byte)
  | staZpX (b : Byte)
  | staAbs (w : Word)
  | staAbsX (w : Word)
  | staAbsY (w : Word)
  | staIndX (b : Byte)
  | staIndY (b : Byte)
  | stxZp (b : Byte)
  | stxZpY (b : Byte)
  | stxAbs (w : Word)
  | styZp (b : Byte)
  | styZpX (b : Byte)
  | styAbs (w : Word)
  -- R147 to R152: transfers
  | tax
  | tay
  | txa
  | tya
  | tsx
  | txs
  -- R161, R162: arithmetic
  | adcImm (b : Byte)
  | adcZp (b : Byte)
  | adcZpX (b : Byte)
  | adcAbs (w : Word)
  | adcAbsX (w : Word)
  | adcAbsY (w : Word)
  | adcIndX (b : Byte)
  | adcIndY (b : Byte)
  | sbcImm (b : Byte)
  | sbcZp (b : Byte)
  | sbcZpX (b : Byte)
  | sbcAbs (w : Word)
  | sbcAbsX (w : Word)
  | sbcAbsY (w : Word)
  | sbcIndX (b : Byte)
  | sbcIndY (b : Byte)
  -- R163 to R165: logic
  | andImm (b : Byte)
  | andZp (b : Byte)
  | andZpX (b : Byte)
  | andAbs (w : Word)
  | andAbsX (w : Word)
  | andAbsY (w : Word)
  | andIndX (b : Byte)
  | andIndY (b : Byte)
  | oraImm (b : Byte)
  | oraZp (b : Byte)
  | oraZpX (b : Byte)
  | oraAbs (w : Word)
  | oraAbsX (w : Word)
  | oraAbsY (w : Word)
  | oraIndX (b : Byte)
  | oraIndY (b : Byte)
  | eorImm (b : Byte)
  | eorZp (b : Byte)
  | eorZpX (b : Byte)
  | eorAbs (w : Word)
  | eorAbsX (w : Word)
  | eorAbsY (w : Word)
  | eorIndX (b : Byte)
  | eorIndY (b : Byte)
  -- R181 to R184: shifts and rotates
  | aslAcc
  | aslZp (b : Byte)
  | aslZpX (b : Byte)
  | aslAbs (w : Word)
  | aslAbsX (w : Word)
  | lsrAcc
  | lsrZp (b : Byte)
  | lsrZpX (b : Byte)
  | lsrAbs (w : Word)
  | lsrAbsX (w : Word)
  | rolAcc
  | rolZp (b : Byte)
  | rolZpX (b : Byte)
  | rolAbs (w : Word)
  | rolAbsX (w : Word)
  | rorAcc
  | rorZp (b : Byte)
  | rorZpX (b : Byte)
  | rorAbs (w : Word)
  | rorAbsX (w : Word)
  -- R191 to R196: increments and decrements
  | incZp (b : Byte)
  | incZpX (b : Byte)
  | incAbs (w : Word)
  | incAbsX (w : Word)
  | decZp (b : Byte)
  | decZpX (b : Byte)
  | decAbs (w : Word)
  | decAbsX (w : Word)
  | inx
  | iny
  | dex
  | dey
  -- R201 to R204: compares and bit test
  | cmpImm (b : Byte)
  | cmpZp (b : Byte)
  | cmpZpX (b : Byte)
  | cmpAbs (w : Word)
  | cmpAbsX (w : Word)
  | cmpAbsY (w : Word)
  | cmpIndX (b : Byte)
  | cmpIndY (b : Byte)
  | cpxImm (b : Byte)
  | cpxZp (b : Byte)
  | cpxAbs (w : Word)
  | cpyImm (b : Byte)
  | cpyZp (b : Byte)
  | cpyAbs (w : Word)
  | bitZp (b : Byte)
  | bitAbs (w : Word)
  -- R211 to R218: conditional branches
  | bcc (b : Byte)
  | bcs (b : Byte)
  | beq (b : Byte)
  | bne (b : Byte)
  | bmi (b : Byte)
  | bpl (b : Byte)
  | bvc (b : Byte)
  | bvs (b : Byte)
  -- R231 to R237: flags
  | clc
  | cld
  | cli
  | clv
  | sec
  | sed
  | sei
  -- R241 to R244: stack
  | pha
  | pla
  | php
  | plp
  -- R251 to R256: jumps, subroutines, software interrupt, no-op
  | jmpAbs (w : Word)
  | jmpInd (w : Word)
  | jsr (w : Word)
  | rts
  | brk
  | rti
  | nop
  deriving DecidableEq, Repr

/-- The mnemonic of an instruction's row. -/
def Instr.mnemonic : Instr → Mnemonic
  | .ldaImm _ | .ldaZp _ | .ldaZpX _ | .ldaAbs _ | .ldaAbsX _ | .ldaAbsY _ | .ldaIndX _ | .ldaIndY _ => .lda
  | .ldxImm _ | .ldxZp _ | .ldxZpY _ | .ldxAbs _ | .ldxAbsY _ => .ldx
  | .ldyImm _ | .ldyZp _ | .ldyZpX _ | .ldyAbs _ | .ldyAbsX _ => .ldy
  | .staZp _ | .staZpX _ | .staAbs _ | .staAbsX _ | .staAbsY _ | .staIndX _ | .staIndY _ => .sta
  | .stxZp _ | .stxZpY _ | .stxAbs _ => .stx
  | .styZp _ | .styZpX _ | .styAbs _ => .sty
  | .tax => .tax
  | .tay => .tay
  | .txa => .txa
  | .tya => .tya
  | .tsx => .tsx
  | .txs => .txs
  | .adcImm _ | .adcZp _ | .adcZpX _ | .adcAbs _ | .adcAbsX _ | .adcAbsY _ | .adcIndX _ | .adcIndY _ => .adc
  | .sbcImm _ | .sbcZp _ | .sbcZpX _ | .sbcAbs _ | .sbcAbsX _ | .sbcAbsY _ | .sbcIndX _ | .sbcIndY _ => .sbc
  | .andImm _ | .andZp _ | .andZpX _ | .andAbs _ | .andAbsX _ | .andAbsY _ | .andIndX _ | .andIndY _ => .and
  | .oraImm _ | .oraZp _ | .oraZpX _ | .oraAbs _ | .oraAbsX _ | .oraAbsY _ | .oraIndX _ | .oraIndY _ => .ora
  | .eorImm _ | .eorZp _ | .eorZpX _ | .eorAbs _ | .eorAbsX _ | .eorAbsY _ | .eorIndX _ | .eorIndY _ => .eor
  | .aslAcc | .aslZp _ | .aslZpX _ | .aslAbs _ | .aslAbsX _ => .asl
  | .lsrAcc | .lsrZp _ | .lsrZpX _ | .lsrAbs _ | .lsrAbsX _ => .lsr
  | .rolAcc | .rolZp _ | .rolZpX _ | .rolAbs _ | .rolAbsX _ => .rol
  | .rorAcc | .rorZp _ | .rorZpX _ | .rorAbs _ | .rorAbsX _ => .ror
  | .incZp _ | .incZpX _ | .incAbs _ | .incAbsX _ => .inc
  | .decZp _ | .decZpX _ | .decAbs _ | .decAbsX _ => .dec
  | .inx => .inx
  | .iny => .iny
  | .dex => .dex
  | .dey => .dey
  | .cmpImm _ | .cmpZp _ | .cmpZpX _ | .cmpAbs _ | .cmpAbsX _ | .cmpAbsY _ | .cmpIndX _ | .cmpIndY _ => .cmp
  | .cpxImm _ | .cpxZp _ | .cpxAbs _ => .cpx
  | .cpyImm _ | .cpyZp _ | .cpyAbs _ => .cpy
  | .bitZp _ | .bitAbs _ => .bit
  | .bcc _ => .bcc
  | .bcs _ => .bcs
  | .beq _ => .beq
  | .bne _ => .bne
  | .bmi _ => .bmi
  | .bpl _ => .bpl
  | .bvc _ => .bvc
  | .bvs _ => .bvs
  | .clc => .clc
  | .cld => .cld
  | .cli => .cli
  | .clv => .clv
  | .sec => .sec
  | .sed => .sed
  | .sei => .sei
  | .pha => .pha
  | .pla => .pla
  | .php => .php
  | .plp => .plp
  | .jmpAbs _ | .jmpInd _ => .jmp
  | .jsr _ => .jsr
  | .rts => .rts
  | .brk => .brk
  | .rti => .rti
  | .nop => .nop

/-- The addressing mode and operand of an instruction. -/
def Instr.operand : Instr → Operand
  | .ldaImm b => .imm b
  | .ldaZp b => .zp b
  | .ldaZpX b => .zpX b
  | .ldaAbs w => .abs w
  | .ldaAbsX w => .absX w
  | .ldaAbsY w => .absY w
  | .ldaIndX b => .indX b
  | .ldaIndY b => .indY b
  | .ldxImm b => .imm b
  | .ldxZp b => .zp b
  | .ldxZpY b => .zpY b
  | .ldxAbs w => .abs w
  | .ldxAbsY w => .absY w
  | .ldyImm b => .imm b
  | .ldyZp b => .zp b
  | .ldyZpX b => .zpX b
  | .ldyAbs w => .abs w
  | .ldyAbsX w => .absX w
  | .staZp b => .zp b
  | .staZpX b => .zpX b
  | .staAbs w => .abs w
  | .staAbsX w => .absX w
  | .staAbsY w => .absY w
  | .staIndX b => .indX b
  | .staIndY b => .indY b
  | .stxZp b => .zp b
  | .stxZpY b => .zpY b
  | .stxAbs w => .abs w
  | .styZp b => .zp b
  | .styZpX b => .zpX b
  | .styAbs w => .abs w
  | .tax => .impl
  | .tay => .impl
  | .txa => .impl
  | .tya => .impl
  | .tsx => .impl
  | .txs => .impl
  | .adcImm b => .imm b
  | .adcZp b => .zp b
  | .adcZpX b => .zpX b
  | .adcAbs w => .abs w
  | .adcAbsX w => .absX w
  | .adcAbsY w => .absY w
  | .adcIndX b => .indX b
  | .adcIndY b => .indY b
  | .sbcImm b => .imm b
  | .sbcZp b => .zp b
  | .sbcZpX b => .zpX b
  | .sbcAbs w => .abs w
  | .sbcAbsX w => .absX w
  | .sbcAbsY w => .absY w
  | .sbcIndX b => .indX b
  | .sbcIndY b => .indY b
  | .andImm b => .imm b
  | .andZp b => .zp b
  | .andZpX b => .zpX b
  | .andAbs w => .abs w
  | .andAbsX w => .absX w
  | .andAbsY w => .absY w
  | .andIndX b => .indX b
  | .andIndY b => .indY b
  | .oraImm b => .imm b
  | .oraZp b => .zp b
  | .oraZpX b => .zpX b
  | .oraAbs w => .abs w
  | .oraAbsX w => .absX w
  | .oraAbsY w => .absY w
  | .oraIndX b => .indX b
  | .oraIndY b => .indY b
  | .eorImm b => .imm b
  | .eorZp b => .zp b
  | .eorZpX b => .zpX b
  | .eorAbs w => .abs w
  | .eorAbsX w => .absX w
  | .eorAbsY w => .absY w
  | .eorIndX b => .indX b
  | .eorIndY b => .indY b
  | .aslAcc => .acc
  | .aslZp b => .zp b
  | .aslZpX b => .zpX b
  | .aslAbs w => .abs w
  | .aslAbsX w => .absX w
  | .lsrAcc => .acc
  | .lsrZp b => .zp b
  | .lsrZpX b => .zpX b
  | .lsrAbs w => .abs w
  | .lsrAbsX w => .absX w
  | .rolAcc => .acc
  | .rolZp b => .zp b
  | .rolZpX b => .zpX b
  | .rolAbs w => .abs w
  | .rolAbsX w => .absX w
  | .rorAcc => .acc
  | .rorZp b => .zp b
  | .rorZpX b => .zpX b
  | .rorAbs w => .abs w
  | .rorAbsX w => .absX w
  | .incZp b => .zp b
  | .incZpX b => .zpX b
  | .incAbs w => .abs w
  | .incAbsX w => .absX w
  | .decZp b => .zp b
  | .decZpX b => .zpX b
  | .decAbs w => .abs w
  | .decAbsX w => .absX w
  | .inx => .impl
  | .iny => .impl
  | .dex => .impl
  | .dey => .impl
  | .cmpImm b => .imm b
  | .cmpZp b => .zp b
  | .cmpZpX b => .zpX b
  | .cmpAbs w => .abs w
  | .cmpAbsX w => .absX w
  | .cmpAbsY w => .absY w
  | .cmpIndX b => .indX b
  | .cmpIndY b => .indY b
  | .cpxImm b => .imm b
  | .cpxZp b => .zp b
  | .cpxAbs w => .abs w
  | .cpyImm b => .imm b
  | .cpyZp b => .zp b
  | .cpyAbs w => .abs w
  | .bitZp b => .zp b
  | .bitAbs w => .abs w
  | .bcc b => .rel b
  | .bcs b => .rel b
  | .beq b => .rel b
  | .bne b => .rel b
  | .bmi b => .rel b
  | .bpl b => .rel b
  | .bvc b => .rel b
  | .bvs b => .rel b
  | .clc => .impl
  | .cld => .impl
  | .cli => .impl
  | .clv => .impl
  | .sec => .impl
  | .sed => .impl
  | .sei => .impl
  | .pha => .impl
  | .pla => .impl
  | .php => .impl
  | .plp => .impl
  | .jmpAbs w => .abs w
  | .jmpInd w => .ind w
  | .jsr w => .abs w
  | .rts => .impl
  | .brk => .impl
  | .rti => .impl
  | .nop => .impl

/-- The addressing mode of an instruction's row. -/
def Instr.mode (i : Instr) : Mode := i.operand.mode

end Sys2Proof
end

