-- ==== Sys2Proof/WellFormed.lean ====
section
/-! DEFINITION. Which (mnemonic, operand) pairs are instructions.  `Instr` has one constructor per legal pair and its
fields have the encoding's own widths, so every term of `Instr` is well formed; the check has work to do on a `Form`,
the raw pair of an instruction and an addressing mode that the opcode table's rows and assembler text speak of. -/

namespace Sys2Proof

/-- R74: the legal mode set of each mnemonic, the set of its rows. -/
def legalModes : Mnemonic → List Mode
  | .lda | .adc | .sbc | .and | .ora | .eor | .cmp =>
    [.imm, .zp, .zpX, .abs, .absX, .absY, .indX, .indY]
  | .ldx =>
    [.imm, .zp, .zpY, .abs, .absY]
  | .ldy =>
    [.imm, .zp, .zpX, .abs, .absX]
  | .sta =>
    [.zp, .zpX, .abs, .absX, .absY, .indX, .indY]
  | .stx =>
    [.zp, .zpY, .abs]
  | .sty =>
    [.zp, .zpX, .abs]
  | .tax | .tay | .txa | .tya | .tsx | .txs | .inx | .iny | .dex | .dey | .clc | .cld | .cli
  | .clv | .sec | .sed | .sei | .pha | .pla | .php | .plp | .rts | .brk | .rti | .nop =>
    [.impl]
  | .asl | .lsr | .rol | .ror =>
    [.acc, .zp, .zpX, .abs, .absX]
  | .inc | .dec =>
    [.zp, .zpX, .abs, .absX]
  | .cpx | .cpy =>
    [.imm, .zp, .abs]
  | .bit =>
    [.zp, .abs]
  | .bcc | .bcs | .beq | .bne | .bmi | .bpl | .bvc | .bvs =>
    [.rel]
  | .jmp =>
    [.abs, .ind]
  | .jsr =>
    [.abs]

/-- R103: a mnemonic paired with an operand, legal or not. -/
structure Form where
  mnemonic : Mnemonic
  operand : Operand
  deriving DecidableEq, Repr

/-- A form is well formed when its mode is one of its mnemonic's rows (R74, R130). -/
abbrev Form.WellFormed (f : Form) : Prop := f.operand.mode ∈ legalModes f.mnemonic

/-- The form of an instruction. -/
def Instr.form (i : Instr) : Form := ⟨i.mnemonic, i.operand⟩

/-- An instruction is well formed when its form is. -/
abbrev Instr.WellFormed (i : Instr) : Prop := i.form.WellFormed

end Sys2Proof
end

