-- ==== Sys2Proof/Decode.lean ====
section
/-! DEFINITION. The opcode table of 30_encoding.md R74, the total decoder over any bytes, and the encoder, both
written from that one table; and the byte-order and extension helpers operands need. -/

namespace Sys2Proof

/-! ## Byte order and extension (R6, R72, R73) -/

/-- R6: `[hi, lo]` is the 16-bit value `hi << 8 | lo`. -/
def word16 (hi lo : Byte) : Word := hi ++ lo

/-- The low byte of a word, `w[7:0]`. -/
def Word.lo (w : Word) : Byte := w.extractLsb' 0 8

/-- The high byte of a word, `w[15:8]`. -/
def Word.hi (w : Word) : Byte := w.extractLsb' 8 8

/-- R72: a byte widened to 16 bits with zeros. -/
def zext16 (b : Byte) : Word := b.setWidth 16

/-- R73: a byte read as a two's-complement number and widened to 16 bits. -/
def sext16 (b : Byte) : Word := b.signExtend 16

/-! ## The opcode table -/

/-- R103: an entry of the opcode table. -/
structure Row where
  opcode : Byte
  mnemonic : Mnemonic
  mode : Mode
  baseCycles : Nat
  deriving DecidableEq, Repr

/-- R74, map line 0x. -/
def opcodeRows0 : List Row :=
  [⟨0x00, .brk, .impl, 7⟩, ⟨0x01, .ora, .indX, 6⟩, ⟨0x05, .ora, .zp, 3⟩, ⟨0x06, .asl, .zp, 5⟩,
   ⟨0x08, .php, .impl, 3⟩, ⟨0x09, .ora, .imm, 2⟩, ⟨0x0A, .asl, .acc, 2⟩, ⟨0x0D, .ora, .abs, 4⟩,
   ⟨0x0E, .asl, .abs, 6⟩]

/-- R74, map line 1x. -/
def opcodeRows1 : List Row :=
  [⟨0x10, .bpl, .rel, 2⟩, ⟨0x11, .ora, .indY, 5⟩, ⟨0x15, .ora, .zpX, 4⟩, ⟨0x16, .asl, .zpX, 6⟩,
   ⟨0x18, .clc, .impl, 2⟩, ⟨0x19, .ora, .absY, 4⟩, ⟨0x1D, .ora, .absX, 4⟩, ⟨0x1E, .asl, .absX, 7⟩]

/-- R74, map line 2x. -/
def opcodeRows2 : List Row :=
  [⟨0x20, .jsr, .abs, 6⟩, ⟨0x21, .and, .indX, 6⟩, ⟨0x24, .bit, .zp, 3⟩, ⟨0x25, .and, .zp, 3⟩,
   ⟨0x26, .rol, .zp, 5⟩, ⟨0x28, .plp, .impl, 4⟩, ⟨0x29, .and, .imm, 2⟩, ⟨0x2A, .rol, .acc, 2⟩,
   ⟨0x2C, .bit, .abs, 4⟩, ⟨0x2D, .and, .abs, 4⟩, ⟨0x2E, .rol, .abs, 6⟩]

/-- R74, map line 3x. -/
def opcodeRows3 : List Row :=
  [⟨0x30, .bmi, .rel, 2⟩, ⟨0x31, .and, .indY, 5⟩, ⟨0x35, .and, .zpX, 4⟩, ⟨0x36, .rol, .zpX, 6⟩,
   ⟨0x38, .sec, .impl, 2⟩, ⟨0x39, .and, .absY, 4⟩, ⟨0x3D, .and, .absX, 4⟩, ⟨0x3E, .rol, .absX, 7⟩]

/-- R74, map line 4x. -/
def opcodeRows4 : List Row :=
  [⟨0x40, .rti, .impl, 6⟩, ⟨0x41, .eor, .indX, 6⟩, ⟨0x45, .eor, .zp, 3⟩, ⟨0x46, .lsr, .zp, 5⟩,
   ⟨0x48, .pha, .impl, 3⟩, ⟨0x49, .eor, .imm, 2⟩, ⟨0x4A, .lsr, .acc, 2⟩, ⟨0x4C, .jmp, .abs, 3⟩,
   ⟨0x4D, .eor, .abs, 4⟩, ⟨0x4E, .lsr, .abs, 6⟩]

/-- R74, map line 5x. -/
def opcodeRows5 : List Row :=
  [⟨0x50, .bvc, .rel, 2⟩, ⟨0x51, .eor, .indY, 5⟩, ⟨0x55, .eor, .zpX, 4⟩, ⟨0x56, .lsr, .zpX, 6⟩,
   ⟨0x58, .cli, .impl, 2⟩, ⟨0x59, .eor, .absY, 4⟩, ⟨0x5D, .eor, .absX, 4⟩, ⟨0x5E, .lsr, .absX, 7⟩]

/-- R74, map line 6x. -/
def opcodeRows6 : List Row :=
  [⟨0x60, .rts, .impl, 6⟩, ⟨0x61, .adc, .indX, 6⟩, ⟨0x65, .adc, .zp, 3⟩, ⟨0x66, .ror, .zp, 5⟩,
   ⟨0x68, .pla, .impl, 4⟩, ⟨0x69, .adc, .imm, 2⟩, ⟨0x6A, .ror, .acc, 2⟩, ⟨0x6C, .jmp, .ind, 5⟩,
   ⟨0x6D, .adc, .abs, 4⟩, ⟨0x6E, .ror, .abs, 6⟩]

/-- R74, map line 7x. -/
def opcodeRows7 : List Row :=
  [⟨0x70, .bvs, .rel, 2⟩, ⟨0x71, .adc, .indY, 5⟩, ⟨0x75, .adc, .zpX, 4⟩, ⟨0x76, .ror, .zpX, 6⟩,
   ⟨0x78, .sei, .impl, 2⟩, ⟨0x79, .adc, .absY, 4⟩, ⟨0x7D, .adc, .absX, 4⟩, ⟨0x7E, .ror, .absX, 7⟩]

/-- R74, map line 8x. -/
def opcodeRows8 : List Row :=
  [⟨0x81, .sta, .indX, 6⟩, ⟨0x84, .sty, .zp, 3⟩, ⟨0x85, .sta, .zp, 3⟩, ⟨0x86, .stx, .zp, 3⟩,
   ⟨0x88, .dey, .impl, 2⟩, ⟨0x8A, .txa, .impl, 2⟩, ⟨0x8C, .sty, .abs, 4⟩, ⟨0x8D, .sta, .abs, 4⟩,
   ⟨0x8E, .stx, .abs, 4⟩]

/-- R74, map line 9x. -/
def opcodeRows9 : List Row :=
  [⟨0x90, .bcc, .rel, 2⟩, ⟨0x91, .sta, .indY, 6⟩, ⟨0x94, .sty, .zpX, 4⟩, ⟨0x95, .sta, .zpX, 4⟩,
   ⟨0x96, .stx, .zpY, 4⟩, ⟨0x98, .tya, .impl, 2⟩, ⟨0x99, .sta, .absY, 5⟩, ⟨0x9A, .txs, .impl, 2⟩,
   ⟨0x9D, .sta, .absX, 5⟩]

/-- R74, map line Ax. -/
def opcodeRowsA : List Row :=
  [⟨0xA0, .ldy, .imm, 2⟩, ⟨0xA1, .lda, .indX, 6⟩, ⟨0xA2, .ldx, .imm, 2⟩, ⟨0xA4, .ldy, .zp, 3⟩,
   ⟨0xA5, .lda, .zp, 3⟩, ⟨0xA6, .ldx, .zp, 3⟩, ⟨0xA8, .tay, .impl, 2⟩, ⟨0xA9, .lda, .imm, 2⟩,
   ⟨0xAA, .tax, .impl, 2⟩, ⟨0xAC, .ldy, .abs, 4⟩, ⟨0xAD, .lda, .abs, 4⟩, ⟨0xAE, .ldx, .abs, 4⟩]

/-- R74, map line Bx. -/
def opcodeRowsB : List Row :=
  [⟨0xB0, .bcs, .rel, 2⟩, ⟨0xB1, .lda, .indY, 5⟩, ⟨0xB4, .ldy, .zpX, 4⟩, ⟨0xB5, .lda, .zpX, 4⟩,
   ⟨0xB6, .ldx, .zpY, 4⟩, ⟨0xB8, .clv, .impl, 2⟩, ⟨0xB9, .lda, .absY, 4⟩, ⟨0xBA, .tsx, .impl, 2⟩,
   ⟨0xBC, .ldy, .absX, 4⟩, ⟨0xBD, .lda, .absX, 4⟩, ⟨0xBE, .ldx, .absY, 4⟩]

/-- R74, map line Cx. -/
def opcodeRowsC : List Row :=
  [⟨0xC0, .cpy, .imm, 2⟩, ⟨0xC1, .cmp, .indX, 6⟩, ⟨0xC4, .cpy, .zp, 3⟩, ⟨0xC5, .cmp, .zp, 3⟩,
   ⟨0xC6, .dec, .zp, 5⟩, ⟨0xC8, .iny, .impl, 2⟩, ⟨0xC9, .cmp, .imm, 2⟩, ⟨0xCA, .dex, .impl, 2⟩,
   ⟨0xCC, .cpy, .abs, 4⟩, ⟨0xCD, .cmp, .abs, 4⟩, ⟨0xCE, .dec, .abs, 6⟩]

/-- R74, map line Dx. -/
def opcodeRowsD : List Row :=
  [⟨0xD0, .bne, .rel, 2⟩, ⟨0xD1, .cmp, .indY, 5⟩, ⟨0xD5, .cmp, .zpX, 4⟩, ⟨0xD6, .dec, .zpX, 6⟩,
   ⟨0xD8, .cld, .impl, 2⟩, ⟨0xD9, .cmp, .absY, 4⟩, ⟨0xDD, .cmp, .absX, 4⟩, ⟨0xDE, .dec, .absX, 7⟩]

/-- R74, map line Ex. -/
def opcodeRowsE : List Row :=
  [⟨0xE0, .cpx, .imm, 2⟩, ⟨0xE1, .sbc, .indX, 6⟩, ⟨0xE4, .cpx, .zp, 3⟩, ⟨0xE5, .sbc, .zp, 3⟩,
   ⟨0xE6, .inc, .zp, 5⟩, ⟨0xE8, .inx, .impl, 2⟩, ⟨0xE9, .sbc, .imm, 2⟩, ⟨0xEA, .nop, .impl, 2⟩,
   ⟨0xEC, .cpx, .abs, 4⟩, ⟨0xED, .sbc, .abs, 4⟩, ⟨0xEE, .inc, .abs, 6⟩]

/-- R74, map line Fx. -/
def opcodeRowsF : List Row :=
  [⟨0xF0, .beq, .rel, 2⟩, ⟨0xF1, .sbc, .indY, 5⟩, ⟨0xF5, .sbc, .zpX, 4⟩, ⟨0xF6, .inc, .zpX, 6⟩,
   ⟨0xF8, .sed, .impl, 2⟩, ⟨0xF9, .sbc, .absY, 4⟩, ⟨0xFD, .sbc, .absX, 4⟩, ⟨0xFE, .inc, .absX, 7⟩]

/-- R74: the 151 rows. -/
def opcodeTable : List Row :=
  opcodeRows0 ++ opcodeRows1 ++ opcodeRows2 ++ opcodeRows3 ++ opcodeRows4 ++ opcodeRows5 ++
  opcodeRows6 ++ opcodeRows7 ++ opcodeRows8 ++ opcodeRows9 ++ opcodeRowsA ++ opcodeRowsB ++
  opcodeRowsC ++ opcodeRowsD ++ opcodeRowsE ++ opcodeRowsF

/-- R78, U4: registering a row in a table under construction; a second row for one opcode byte is rejected. -/
def registerRow (t : List Row) (r : Row) : Option (List Row) :=
  if t.any (fun q => q.opcode == r.opcode) then none else some (t ++ [r])

/-- R78: the table built by registering rows one at a time. -/
def buildTable (rows : List Row) : Option (List Row) := rows.foldlM registerRow []

/-- R74: the map line of a high digit. -/
def opcodeLine (hi : Nat) : List Row :=
  match hi with
  | 0x0 => opcodeRows0
  | 0x1 => opcodeRows1
  | 0x2 => opcodeRows2
  | 0x3 => opcodeRows3
  | 0x4 => opcodeRows4
  | 0x5 => opcodeRows5
  | 0x6 => opcodeRows6
  | 0x7 => opcodeRows7
  | 0x8 => opcodeRows8
  | 0x9 => opcodeRows9
  | 0xA => opcodeRowsA
  | 0xB => opcodeRowsB
  | 0xC => opcodeRowsC
  | 0xD => opcodeRowsD
  | 0xE => opcodeRowsE
  | 0xF => opcodeRowsF
  | _ => []

/-- R78, R102: the row of an opcode byte, looked for in the map line of its high digit, or `none`, the unknown-opcode
case. -/
def lookup (op : Byte) : Option Row := (opcodeLine (op.toNat / 16)).find? (fun r => r.opcode == op)

/-- R75: the unassigned bytes. -/
def unassignedBytes : List Byte :=
  (List.range 256).filterMap fun n => if (lookup (BitVec.ofNat 8 n)).isNone then some (BitVec.ofNat 8 n) else none

/-- R104: what an instruction does at its effective address. -/
inductive OperandClass where
  | read | write | rmw | accumulator | branch | jump | none
  deriving DecidableEq, Repr

/-- R104: the operand class of a row. -/
def Mnemonic.operandClass (m : Mnemonic) (mode : Mode) : OperandClass :=
  match m with
  | .lda | .ldx | .ldy | .adc | .sbc | .and | .ora | .eor | .cmp | .cpx | .cpy | .bit => .read
  | .sta | .stx | .sty => .write
  | .asl | .lsr | .rol | .ror => if mode = .acc then .accumulator else .rmw
  | .inc | .dec => .rmw
  | .bcc | .bcs | .beq | .bne | .bmi | .bpl | .bvc | .bvs => .branch
  | .jmp | .jsr => .jump
  | .tax | .tay | .txa | .tya | .tsx | .txs | .inx | .iny | .dex | .dey | .clc | .cld | .cli
  | .clv | .sec | .sed | .sei | .pha | .pla | .php | .plp | .rts | .brk | .rti | .nop => .none

/-- R104: the operand class of an instruction. -/
def Instr.operandClass (i : Instr) : OperandClass := i.mnemonic.operandClass i.mode

/-- R71: how many operand bytes a mode has. -/
def Mode.operandBytes : Mode → Nat
  | .acc | .impl => 0
  | .imm | .zp | .zpX | .zpY | .indX | .indY | .rel => 1
  | .abs | .absX | .absY | .ind => 2

/-- R70: the length of a row's instruction in bytes. -/
def Row.length (r : Row) : Nat := 1 + r.mode.operandBytes

/-- R71, R72: the operand a mode assembles from its operand bytes (`o1` then `o2`; a mode ignores those it lacks). -/
def Mode.assemble (m : Mode) (o1 o2 : Byte) : Operand :=
  match m with
  | .acc => .acc
  | .impl => .impl
  | .imm => .imm o1
  | .zp => .zp o1
  | .zpX => .zpX o1
  | .zpY => .zpY o1
  | .abs => .abs (word16 o2 o1)
  | .absX => .absX (word16 o2 o1)
  | .absY => .absY (word16 o2 o1)
  | .ind => .ind (word16 o2 o1)
  | .indX => .indX o1
  | .indY => .indY o1
  | .rel => .rel o1

/-- The operand bytes of an operand, in memory order (R70: `lo` at + 1, `hi` at + 2). -/
def Operand.bytes : Operand → List Byte
  | .acc | .impl => []
  | .imm b | .zp b | .zpX b | .zpY b | .indX b | .indY b | .rel b => [b]
  | .abs w | .absX w | .absY w | .ind w => [w.lo, w.hi]

/-- R130: the instruction of a mnemonic and operand, where the opcode table has such a row. -/
def Instr.ofForm (m : Mnemonic) (o : Operand) : Option Instr :=
  match o with
  | .acc =>
    match m with
    | .asl => some .aslAcc
    | .lsr => some .lsrAcc
    | .rol => some .rolAcc
    | .ror => some .rorAcc
    | _ => none
  | .impl =>
    match m with
    | .tax => some .tax
    | .tay => some .tay
    | .txa => some .txa
    | .tya => some .tya
    | .tsx => some .tsx
    | .txs => some .txs
    | .inx => some .inx
    | .iny => some .iny
    | .dex => some .dex
    | .dey => some .dey
    | .clc => some .clc
    | .cld => some .cld
    | .cli => some .cli
    | .clv => some .clv
    | .sec => some .sec
    | .sed => some .sed
    | .sei => some .sei
    | .pha => some .pha
    | .pla => some .pla
    | .php => some .php
    | .plp => some .plp
    | .rts => some .rts
    | .brk => some .brk
    | .rti => some .rti
    | .nop => some .nop
    | _ => none
  | .imm b =>
    match m with
    | .lda => some (.ldaImm b)
    | .ldx => some (.ldxImm b)
    | .ldy => some (.ldyImm b)
    | .adc => some (.adcImm b)
    | .sbc => some (.sbcImm b)
    | .and => some (.andImm b)
    | .ora => some (.oraImm b)
    | .eor => some (.eorImm b)
    | .cmp => some (.cmpImm b)
    | .cpx => some (.cpxImm b)
    | .cpy => some (.cpyImm b)
    | _ => none
  | .zp b =>
    match m with
    | .lda => some (.ldaZp b)
    | .ldx => some (.ldxZp b)
    | .ldy => some (.ldyZp b)
    | .sta => some (.staZp b)
    | .stx => some (.stxZp b)
    | .sty => some (.styZp b)
    | .adc => some (.adcZp b)
    | .sbc => some (.sbcZp b)
    | .and => some (.andZp b)
    | .ora => some (.oraZp b)
    | .eor => some (.eorZp b)
    | .asl => some (.aslZp b)
    | .lsr => some (.lsrZp b)
    | .rol => some (.rolZp b)
    | .ror => some (.rorZp b)
    | .inc => some (.incZp b)
    | .dec => some (.decZp b)
    | .cmp => some (.cmpZp b)
    | .cpx => some (.cpxZp b)
    | .cpy => some (.cpyZp b)
    | .bit => some (.bitZp b)
    | _ => none
  | .zpX b =>
    match m with
    | .lda => some (.ldaZpX b)
    | .ldy => some (.ldyZpX b)
    | .sta => some (.staZpX b)
    | .sty => some (.styZpX b)
    | .adc => some (.adcZpX b)
    | .sbc => some (.sbcZpX b)
    | .and => some (.andZpX b)
    | .ora => some (.oraZpX b)
    | .eor => some (.eorZpX b)
    | .asl => some (.aslZpX b)
    | .lsr => some (.lsrZpX b)
    | .rol => some (.rolZpX b)
    | .ror => some (.rorZpX b)
    | .inc => some (.incZpX b)
    | .dec => some (.decZpX b)
    | .cmp => some (.cmpZpX b)
    | _ => none
  | .zpY b =>
    match m with
    | .ldx => some (.ldxZpY b)
    | .stx => some (.stxZpY b)
    | _ => none
  | .abs w =>
    match m with
    | .lda => some (.ldaAbs w)
    | .ldx => some (.ldxAbs w)
    | .ldy => some (.ldyAbs w)
    | .sta => some (.staAbs w)
    | .stx => some (.stxAbs w)
    | .sty => some (.styAbs w)
    | .adc => some (.adcAbs w)
    | .sbc => some (.sbcAbs w)
    | .and => some (.andAbs w)
    | .ora => some (.oraAbs w)
    | .eor => some (.eorAbs w)
    | .asl => some (.aslAbs w)
    | .lsr => some (.lsrAbs w)
    | .rol => some (.rolAbs w)
    | .ror => some (.rorAbs w)
    | .inc => some (.incAbs w)
    | .dec => some (.decAbs w)
    | .cmp => some (.cmpAbs w)
    | .cpx => some (.cpxAbs w)
    | .cpy => some (.cpyAbs w)
    | .bit => some (.bitAbs w)
    | .jmp => some (.jmpAbs w)
    | .jsr => some (.jsr w)
    | _ => none
  | .absX w =>
    match m with
    | .lda => some (.ldaAbsX w)
    | .ldy => some (.ldyAbsX w)
    | .sta => some (.staAbsX w)
    | .adc => some (.adcAbsX w)
    | .sbc => some (.sbcAbsX w)
    | .and => some (.andAbsX w)
    | .ora => some (.oraAbsX w)
    | .eor => some (.eorAbsX w)
    | .asl => some (.aslAbsX w)
    | .lsr => some (.lsrAbsX w)
    | .rol => some (.rolAbsX w)
    | .ror => some (.rorAbsX w)
    | .inc => some (.incAbsX w)
    | .dec => some (.decAbsX w)
    | .cmp => some (.cmpAbsX w)
    | _ => none
  | .absY w =>
    match m with
    | .lda => some (.ldaAbsY w)
    | .ldx => some (.ldxAbsY w)
    | .sta => some (.staAbsY w)
    | .adc => some (.adcAbsY w)
    | .sbc => some (.sbcAbsY w)
    | .and => some (.andAbsY w)
    | .ora => some (.oraAbsY w)
    | .eor => some (.eorAbsY w)
    | .cmp => some (.cmpAbsY w)
    | _ => none
  | .ind w =>
    match m with
    | .jmp => some (.jmpInd w)
    | _ => none
  | .indX b =>
    match m with
    | .lda => some (.ldaIndX b)
    | .sta => some (.staIndX b)
    | .adc => some (.adcIndX b)
    | .sbc => some (.sbcIndX b)
    | .and => some (.andIndX b)
    | .ora => some (.oraIndX b)
    | .eor => some (.eorIndX b)
    | .cmp => some (.cmpIndX b)
    | _ => none
  | .indY b =>
    match m with
    | .lda => some (.ldaIndY b)
    | .sta => some (.staIndY b)
    | .adc => some (.adcIndY b)
    | .sbc => some (.sbcIndY b)
    | .and => some (.andIndY b)
    | .ora => some (.oraIndY b)
    | .eor => some (.eorIndY b)
    | .cmp => some (.cmpIndY b)
    | _ => none
  | .rel b =>
    match m with
    | .bcc => some (.bcc b)
    | .bcs => some (.bcs b)
    | .beq => some (.beq b)
    | .bne => some (.bne b)
    | .bmi => some (.bmi b)
    | .bpl => some (.bpl b)
    | .bvc => some (.bvc b)
    | .bvs => some (.bvs b)
    | _ => none

/-! ## The decoder -/

/-- Why bytes do not decode. -/
inductive DecodeError where
  /-- R75: the opcode byte has no row. -/
  | unknownOpcode (op : Byte)
  /-- The bytes end before the instruction does. -/
  | truncated
  /-- R272: a row whose mode its mnemonic has no handling for; the table has no such row. -/
  | noHandler (op : Byte)
  deriving DecidableEq, Repr

/-- R70: the operand of a mode taken off the front of a list of bytes, with the rest of the list. -/
def Mode.takeOperand (m : Mode) (bs : List Byte) : Option (Operand × List Byte) :=
  match m.operandBytes, bs with
  | 0, bs => some (m.assemble 0 0, bs)
  | 1, o1 :: bs => some (m.assemble o1 0, bs)
  | 2, o1 :: o2 :: bs => some (m.assemble o1 o2, bs)
  | _, _ => none

/-- R70, R76, R102: the instruction at the front of a list of bytes, with the bytes after it.  The opcode byte alone
selects the row. -/
def decode (bs : List Byte) : Except DecodeError (Instr × List Byte) :=
  match bs with
  | [] => .error .truncated
  | op :: rest =>
    match lookup op with
    | none => .error (.unknownOpcode op)
    | some r =>
      match r.mode.takeOperand rest with
      | none => .error .truncated
      | some (o, rest') =>
        match Instr.ofForm r.mnemonic o with
        | none => .error (.noHandler op)
        | some i => .ok (i, rest')

/-- The instruction the decoder reads from bytes numbered as spec/opcode_table.json numbers them: the first byte in
bits 7..0, the second in bits 15..8, the third in bits 23..16, every bit from `nbits` on 0. -/
def decodeTableWord (nbits w : Nat) : Option Instr :=
  let v := w % 2 ^ nbits
  match decode [BitVec.ofNat 8 v, BitVec.ofNat 8 (v / 2 ^ 8), BitVec.ofNat 8 (v / 2 ^ 16)] with
  | .ok (i, _) => some i
  | .error _ => none

/-! ## The encoder -/

/-- R74: the row of a mnemonic and a mode, where the table has one. -/
def rowFor (m : Mnemonic) (mode : Mode) : Option Row :=
  opcodeTable.find? (fun r => r.mnemonic == m && r.mode == mode)

/-- R74: the opcode byte of an instruction, that of its row. -/
def Instr.opcode (i : Instr) : Byte := ((rowFor i.mnemonic i.mode).map Row.opcode).getD 0

/-- R103, R125: the base cycle count of an instruction, that of its row. -/
def Instr.baseCycles (i : Instr) : Nat := ((rowFor i.mnemonic i.mode).map Row.baseCycles).getD 0

/-- R70: the length of an instruction in bytes. -/
def Instr.length (i : Instr) : Nat := 1 + i.mode.operandBytes

/-- R70: the bytes of an instruction, its opcode byte and then its operand bytes. -/
def encode (i : Instr) : List Byte := i.opcode :: i.operand.bytes

end Sys2Proof
end

