-- ==== Sys2Proof/Machine/Memory.lean ====
section
/-! DEFINITION. The bytes behind the bus (20_memory.md R50, D18), as a list of address and byte pairs in one canonical
form: addresses strictly rising below 2^16, and no entry equal to what an unlisted address reads as. -/

namespace Sys2Proof.Machine

/-- R50: 64 KB of bytes by address; an address with no entry reads as `Memory.unlisted`. -/
abbrev Memory := List Host.Cell

/-- What an unlisted address reads as.  DESIGN CHOICE (log 1), unsafe: the spec gives memory no contents after reset
(R305); 0x00 is the zeroed bus of its worked examples (95_test_vectors.md). -/
def Memory.unlisted : Byte := 0

/-- The canonical form. -/
abbrev Memory.wf (m : Memory) : Prop :=
  m.Pairwise (fun c d => c.1 < d.1) ∧ ∀ c ∈ m, c.1 < 2 ^ 16 ∧ c.2 ≠ Memory.unlisted

/-- The byte at an address. -/
def Memory.read (m : Memory) (a : Nat) : Byte :=
  match m with
  | [] => Memory.unlisted
  | (k, v) :: rest => if k = a then v else Memory.read rest a

/-- The memory with no entry for an address. -/
def Memory.erase (m : Memory) (a : Nat) : Memory := m.filter (fun c => c.1 != a)

/-- The memory with an entry put before the first larger address. -/
def Memory.insert (m : Memory) (a : Nat) (v : Byte) : Memory :=
  match m with
  | [] => [(a, v)]
  | (k, u) :: rest => if a < k then (a, v) :: (k, u) :: rest else (k, u) :: Memory.insert rest a v

/-- The memory with one byte changed, in canonical form again. -/
def Memory.write (m : Memory) (a : Nat) (v : Byte) : Memory :=
  if v = Memory.unlisted then Memory.erase m a else Memory.insert (Memory.erase m a) a v

end Sys2Proof.Machine
end

