-- ==== Sys2Proof/Machine/State.lean ====
section
/-! DEFINITION. What the machine holds (10_state.md R20 to R34), the reasons a step can stop, and the state right after
reset (70_reset_and_hazards.md R300 to R305). -/

namespace Sys2Proof.Machine

/-- R28, R270: the record of the unknown-opcode fault, the fetched byte and the address it was fetched from. -/
structure UnknownOpcode where
  op : Byte
  addr : Word
  deriving DecidableEq, Repr

/-- Why the machine stops with a fault. -/
inductive Fault where
  /-- R270, R271: raised by `step` when it fetches an unassigned byte, and again while the latch is set.  Safe: the
  spec halts the core here. -/
  | unknownOpcode (r : UnknownOpcode)
  /-- R272: raised by `step` for a table row whose mode its mnemonic has no handling for, naming the opcode.  Safe:
  the table has no such row (Laws/Decode.lean proves it), and the spec asks for a fault of its own. -/
  | invariantViolation (op : Byte)
  deriving DecidableEq, Repr

/-- Why the model has no meaning for a case. -/
inductive Refusal where
  /-- Raised by `exec` for an instruction with no meaning yet.  Safe. -/
  | notModelled (mnemonic : String)
  /-- R32, U6: raised by every entry point but reset, and by every accessor, before the first reset.  Safe: the spec
  refuses it. -/
  | beforeReset
  /-- R160, U5: raised by ADC and SBC with P.D = 1 when DECIMAL_ENABLED = true.  Safe: the spec refuses it; this
  hardware has DECIMAL_ENABLED = false, so no instruction of it raises this. -/
  | decimalArithmetic
  deriving DecidableEq, Repr

/-- R51, R56: one bus transaction of one byte. -/
inductive Access where
  | read (addr : Word) (value : Byte)
  | write (addr : Word) (value : Byte)
  deriving DecidableEq, Repr

/-- R34: the core's state tuple, and beside it the bus the core works against (R51, D18). -/
structure State where
  /-- R20: the accumulator A. -/
  a : Byte
  /-- R20: the index register X. -/
  x : Byte
  /-- R20: the index register Y. -/
  y : Byte
  /-- R22: the stack pointer SP, an offset within the stack page. -/
  sp : Byte
  /-- R21: the program counter PC. -/
  pc : Word
  /-- R23, R24: the status byte P as stored; `State.status` (Ops.lean) reads it, `State.setP` writes it. -/
  p : Byte
  /-- R27: the cycle counter, unbounded (log 12). -/
  cycles : Nat
  /-- R28: the fault latch. -/
  fault : Option UnknownOpcode
  /-- R34: false before the first reset. -/
  created : Bool
  /-- R50, D18: the bytes behind the bus. -/
  ram : Memory
  /-- R51, U7: what the bus answers to the core's next reads, oldest first: `some v` is an answer of its own, `none`
  (and every read after the list has ended) is the byte of `ram`.  The model's own field (log 2). -/
  answers : List (Option Byte)
  /-- R8, R56: the bus transactions made so far, newest first.  The model's own field (log 3). -/
  log : List Access
  deriving DecidableEq, Repr

/-- R300 to R305: the machine right after reset, on a bus that lists no byte, so that the RESET vector and PC are
0x0000 (95_test_vectors.md Part 3).  Laws/Reset.lean proves that `resetCall` gives this state. -/
def State.reset : State where
  a := 0x00
  x := 0x00
  y := 0x00
  sp := 0xFD
  pc := 0x0000
  p := 0x24
  cycles := 0
  fault := none
  created := true
  ram := []
  answers := []
  log := [.read 0xFFFD 0x00, .read 0xFFFC 0x00]

end Sys2Proof.Machine
end

