-- ==== Sys2Proof/Machine/Flags.lean ====
section
/-! DEFINITION. The flags of P by name (10_state.md R23 to R25) and the ALU with the flags each of its functions
computes (40_execution_control.md R117 to R122). -/

namespace Sys2Proof.Machine

/-- R23: the eight flag bits. -/
inductive Flag where
  | C | Z | I | D | B | U | V | N
  deriving DecidableEq, Repr

/-- R23: the bit position of a flag. -/
def Flag.bit : Flag → Nat
  | .C => 0
  | .Z => 1
  | .I => 2
  | .D => 3
  | .B => 4
  | .U => 5
  | .V => 6
  | .N => 7

/-- R23: the mask of a flag. -/
def Flag.mask : Flag → Byte
  | .C => 0x01
  | .Z => 0x02
  | .I => 0x04
  | .D => 0x08
  | .B => 0x10
  | .U => 0x20
  | .V => 0x40
  | .N => 0x80

/-- R24: bit 5 of P held at 1. -/
def withUnused (v : Byte) : Byte := v ||| 0x20

/-- R24: the status byte as every reader sees it, bit 5 reading as 1. -/
def State.status (s : State) : Byte := withUnused s.p

/-- R24: `P <- v`. -/
def State.setP (s : State) (v : Byte) : State := { s with p := withUnused v }

/-- R23: `P.f`. -/
def State.flag (s : State) (f : Flag) : Bool := s.status.getLsbD f.bit

/-- R23: a byte with one flag bit written and the other seven left. -/
def putFlag (f : Flag) (b : Bool) (v : Byte) : Byte := if b then v ||| f.mask else v &&& ~~~f.mask

/-- R23, R24: `P.f <- b`; a write of 0 to bit 5 has no effect. -/
def State.setFlag (s : State) (f : Flag) (b : Bool) : State := s.setP (putFlag f b s.p)

/-- R117: `SetZN(v)`. -/
def State.setZN (s : State) (v : Byte) : State :=
  (s.setFlag .Z (v == 0)).setFlag .N (v.getLsbD 7)

/-! ## The ALU -/

/-- R118: binary addition with carry: the result, the carry out and the overflow. -/
def aluAdd (a m : Byte) (cin : Bool) : Byte × Bool × Bool :=
  let sum := a.toNat + m.toNat + cin.toNat
  let r := BitVec.ofNat 8 sum
  (r, decide (sum > 0xFF), (~~~(a ^^^ m) &&& (a ^^^ r)).getLsbD 7)

/-- R119. -/
def aluAnd (a m : Byte) : Byte := a &&& m

/-- R119. -/
def aluOr (a m : Byte) : Byte := a ||| m

/-- R119. -/
def aluXor (a m : Byte) : Byte := a ^^^ m

/-- R120: shift left; the carry in is not used. -/
def aluAsl (v : Byte) (_ : Bool) : Byte × Bool := (v <<< 1, v.getLsbD 7)

/-- R120: shift right; the carry in is not used. -/
def aluLsr (v : Byte) (_ : Bool) : Byte × Bool := (v >>> 1, v.getLsbD 0)

/-- R120: rotate left through carry. -/
def aluRol (v : Byte) (cin : Bool) : Byte × Bool := ((v <<< 1) ||| (if cin then 0x01 else 0x00), v.getLsbD 7)

/-- R120: rotate right through carry. -/
def aluRor (v : Byte) (cin : Bool) : Byte × Bool := ((v >>> 1) ||| (if cin then 0x80 else 0x00), v.getLsbD 0)

/-- R121. -/
def aluInc (v : Byte) : Byte := v + 1

/-- R121. -/
def aluDec (v : Byte) : Byte := v - 1

/-- R122: the difference and the carry, the unsigned comparison. -/
def aluCmp (reg m : Byte) : Byte × Bool := (reg - m, decide (m.toNat ≤ reg.toNat))

end Sys2Proof.Machine
end

