-- ==== Sys2Proof/Machine/Ops.lean ====
section
/-! DEFINITION. The named operations over registers, bus and stack (00_scope.md R7; 20_memory.md R51 to R63), cycle
accounting (R125 to R128), and taking an interrupt and returning from one (R254, R255, R277). -/

namespace Sys2Proof.Machine

/-! ## Registers (R7, R30) -/

def State.setA (s : State) (v : Byte) : State := { s with a := v }
def State.setX (s : State) (v : Byte) : State := { s with x := v }
def State.setY (s : State) (v : Byte) : State := { s with y := v }
def State.setSP (s : State) (v : Byte) : State := { s with sp := v }
def State.setPC (s : State) (v : Word) : State := { s with pc := v }

/-- R128: the cycle counter advanced. -/
def State.addCycles (s : State) (n : Nat) : State := { s with cycles := s.cycles + n }

/-! ## The bus (R51 to R53, R56) -/

/-- R51: what the bus answers to a read made now. -/
def State.busAnswer (s : State) (a : Word) : Byte :=
  match s.answers with
  | some v :: _ => v
  | _ => Memory.read s.ram a.toNat

/-- R51: `Read8(a)`, one bus read: the byte, and the state with the transaction made. -/
def read8 (a : Word) (s : State) : Byte × State :=
  (s.busAnswer a, { s with answers := s.answers.tail, log := .read a (s.busAnswer a) :: s.log })

/-- R51: `Write8(a, v)`, one bus write. -/
def write8 (a : Word) (v : Byte) (s : State) : State :=
  { s with ram := Memory.write s.ram a.toNat v, log := .write a v :: s.log }

/-- R52: `Read16(a)`, two reads, the low byte first, the address wrapping. -/
def read16 (a : Word) (s : State) : Word × State :=
  let (lo, s1) := read8 a s
  let (hi, s2) := read8 (a + 1) s1
  (word16 hi lo, s2)

/-! ## The stack (R58, R60 to R63) -/

/-- R58: the stack byte an SP value designates. -/
def stackAddr (sp : Byte) : Word := 0x0100 + zext16 sp

/-- R60. -/
def push8 (v : Byte) (s : State) : State := (write8 (stackAddr s.sp) v s).setSP (s.sp - 1)

/-- R61. -/
def pop8 (s : State) : Byte × State := read8 (stackAddr (s.sp + 1)) (s.setSP (s.sp + 1))

/-- R62: the high byte is pushed first. -/
def push16 (v : Word) (s : State) : State := push8 v.lo (push8 v.hi s)

/-- R63: the low byte is popped first. -/
def pop16 (s : State) : Word × State :=
  let (lo, s1) := pop8 s
  let (hi, s2) := pop8 s1
  (word16 hi lo, s2)

/-! ## Cycle accounting (R116, R125 to R127) -/

/-- The page of an address, `a & 0xFF00`. -/
def pageOf (a : Word) : Word := a &&& 0xFF00

/-- R116: whether two addresses have different high bytes. -/
def pageCrossed (ea base : Word) : Bool := pageOf ea != pageOf base

/-- R127. -/
def branchExtra (taken : Bool) (pcNext target : Word) : Nat :=
  if taken then (if pageCrossed target pcNext then 2 else 1) else 0

/-- R125, R128: an instruction completes: its base count and its extras are added to the counter. -/
def complete (i : Instr) (extra : Nat) (s : State) : Host.Outcome State Fault Refusal :=
  .next (s.addCycles (i.baseCycles + extra))

/-! ## Taking an interrupt and returning from one -/

/-- R59: the interrupt vectors. -/
def nmiVector : Word := 0xFFFA
def resetVector : Word := 0xFFFC
def irqVector : Word := 0xFFFE

/-- The Break and Unused bits of a pushed status byte set: `P | 0x30` (R243, R254). -/
def pushedByBreak (p : Byte) : Byte := p ||| 0x30

/-- Break 0 and Unused 1 in the pushed status byte: `(P & ~0x10) | 0x20` (R277). -/
def pushedByInterrupt (p : Byte) : Byte := (p &&& ~~~0x10#8) ||| 0x20

/-- R254, R277: the entry BRK and interrupt service share: PC pushed, then status, I set, PC loaded from the vector. -/
def enterInterrupt (returnTo : Word) (pushed : Byte) (vector : Word) (s : State) : State :=
  let (target, s') := read16 vector ((push8 pushed (push16 returnTo s)).setFlag .I true)
  s'.setPC target

/-- R255: status popped, Break as popped, Unused 1; then PC popped, with no increment. -/
def returnFromInterrupt (s : State) : State :=
  let (v, s1) := pop8 s
  let (target, s2) := pop16 (s1.setP v)
  s2.setPC target

end Sys2Proof.Machine
end

