-- ==== Sys2Proof/Machine/Operands.lean ====
section
/-! DEFINITION. The addressing resolver (40_execution_control.md R105 to R116) in every mode, and the accesses at the effective address (R123, R180).

An instruction's operand bytes have been read, and PC advanced past them, before its meaning runs (R140; log 6); the
resolver reads the pointer bytes and nothing else. -/

namespace Sys2Proof.Machine

/-- R105: the outputs of the resolver, with the state after its pointer reads. -/
structure Resolved where
  ea : Option Word
  base : Option Word
  crossed : Bool
  state : State
  deriving DecidableEq, Repr

/-- A mode whose address is known without a base. -/
def resolvedAt (ea : Word) (s : State) : Resolved := ⟨some ea, none, false, s⟩

/-- R111, R114, R116: a base address plus an index register, with the page-cross test. -/
def resolvedIndexed (base : Word) (r : Byte) (s : State) : Resolved :=
  ⟨some (base + zext16 r), some base, pageCrossed (base + zext16 r) base, s⟩

/-- R113, R114: the pointer in the zero-page slots `t` and `t + 1`, both within page 0. -/
def readZeroPagePointer (t : Byte) (s : State) : Word × State :=
  let (lo, s1) := read8 (zext16 t) s
  let (hi, s2) := read8 (zext16 (t + 1)) s1
  (word16 hi lo, s2)

/-- R112: where the high byte of an indirect jump's target is read, in the pointer's own page. -/
def indirectHighAddr (ptr : Word) : Word := (ptr &&& 0xFF00) ||| ((ptr + 1) &&& 0x00FF)

/-- R112: the target of an indirect jump. -/
def readIndirectTarget (ptr : Word) (s : State) : Word × State :=
  let (lo, s1) := read8 ptr s
  let (hi, s2) := read8 (indirectHighAddr ptr) s1
  (word16 hi lo, s2)

/-- R106 to R115. -/
def resolve (o : Operand) (s : State) : Resolved :=
  match o with
  | .acc => ⟨none, none, false, s⟩
  | .impl => ⟨none, none, false, s⟩
  | .imm _ => resolvedAt (s.pc - 1) s
  | .zp b => resolvedAt (zext16 b) s
  | .zpX b => resolvedAt (zext16 (b + s.x)) s
  | .zpY b => resolvedAt (zext16 (b + s.y)) s
  | .abs w => resolvedAt w s
  | .absX w => resolvedIndexed w s.x s
  | .absY w => resolvedIndexed w s.y s
  | .ind w => let (target, s') := readIndirectTarget w s; resolvedAt target s'
  | .indX b => let (ptr, s') := readZeroPagePointer (b + s.x) s; resolvedAt ptr s'
  | .indY b => let (ptr, s') := readZeroPagePointer b s; resolvedIndexed ptr s.y s'
  | .rel b => resolvedAt (s.pc + sext16 b) s

/-- The effective address as an address, 0 for the modes that have none. -/
def Resolved.target (r : Resolved) : Word := r.ea.getD 0

/-- R126. -/
def pageCrossPenalty (i : Instr) (crossed : Bool) : Nat :=
  if i.operandClass = .read ∧ i.mode ∈ [Mode.absX, .absY, .indY] ∧ crossed = true then 1 else 0

/-- R107, R123, R180: the operand value: the byte of an Immediate, already read when the operand bytes were (log 6);
A where the mode has no address; otherwise one read at the effective address. -/
def loadOperand (o : Operand) (r : Resolved) : Byte × State :=
  match o, r.ea with
  | .imm b, _ => (b, r.state)
  | _, none => (r.state.a, r.state)
  | _, some ea => read8 ea r.state

/-- R123, R180: a result put back: into A where the mode has no address; otherwise one write at the effective address. -/
def storeOperand (ea : Option Word) (v : Byte) (s : State) : State :=
  match ea with
  | none => s.setA v
  | some ea => write8 ea v s

/-! ## The operand classes as instruction shapes (R104, R123, R124) -/

/-- The read class: the operand value is read, then `f` applied, then the cycles counted. -/
def readClass (i : Instr) (f : Byte → State → State) (s : State) : Host.Outcome State Fault Refusal :=
  let r := resolve i.operand s
  let (m, s1) := loadOperand i.operand r
  complete i (pageCrossPenalty i r.crossed) (f m s1)

/-- The write class: one write of a register's value, no read. -/
def writeClass (i : Instr) (v : Byte) (s : State) : Host.Outcome State Fault Refusal :=
  let r := resolve i.operand s
  complete i (pageCrossPenalty i r.crossed) (storeOperand r.ea v r.state)

/-- R180 to R184: the shift shape, read-modify-write at the effective address or on A: the carry is read before it is
written, and the result goes back where the value came from. -/
def shiftClass (i : Instr) (alu : Byte → Bool → Byte × Bool) (s : State) : Host.Outcome State Fault Refusal :=
  let r := resolve i.operand s
  let (v, s1) := loadOperand i.operand r
  let (res, c) := alu v (s1.flag .C)
  complete i (pageCrossPenalty i r.crossed) (((storeOperand r.ea res s1).setFlag .C c).setZN res)

/-- R191, R192: the read-modify-write shape that leaves the carry alone. -/
def incDecClass (i : Instr) (alu : Byte → Byte) (s : State) : Host.Outcome State Fault Refusal :=
  let r := resolve i.operand s
  let (v, s1) := loadOperand i.operand r
  complete i (pageCrossPenalty i r.crossed) ((storeOperand r.ea (alu v) s1).setZN (alu v))

/-- The Implied instructions: no access at an effective address. -/
def impliedClass (i : Instr) (f : State → State) (s : State) : Host.Outcome State Fault Refusal :=
  complete i 0 (f s)

/-- R210: the branches. -/
def branchClass (i : Instr) (cond : Bool) (s : State) : Host.Outcome State Fault Refusal :=
  let r := resolve i.operand s
  complete i (branchExtra cond s.pc r.target) (if cond then r.state.setPC r.target else r.state)

/-- The jumps: `f` is given the effective address and the state after the resolver. -/
def jumpClass (i : Instr) (f : Word → State → State) (s : State) : Host.Outcome State Fault Refusal :=
  let r := resolve i.operand s
  complete i 0 (f r.target r.state)

end Sys2Proof.Machine
end

