-- ==== Sys2Proof/Machine/Arith.lean ====
section
/-! DEFINITION. Arithmetic and logic on A (42_arithmetic_logical.md R160 to R165). -/

namespace Sys2Proof.Machine

/-- R161: A, carry, overflow, Z and N from a binary addition. -/
def addToA (m : Byte) (s : State) : State :=
  let (r, c, v) := aluAdd s.a m (s.flag .C)
  (((s.setA r).setFlag .C c).setFlag .V v).setZN r

/-- R162: addition of the operand's one's complement. -/
def subFromA (m : Byte) (s : State) : State := addToA (m ^^^ 0xFF) s

/-- R160: with DECIMAL_ENABLED = true and P.D = 1 there is no result; otherwise the arithmetic is binary. -/
def arithmetic (cfg : Config) (i : Instr) (f : Byte → State → State) (s : State) : Host.Outcome State Fault Refusal :=
  if cfg.decimalEnabled && s.flag .D then .refused .decimalArithmetic else readClass i f s

/-- R163 to R165: a bitwise function of A and the operand, into A. -/
def logicA (op : Byte → Byte → Byte) (m : Byte) (s : State) : State := (s.setA (op s.a m)).setZN (op s.a m)

/-- R161, row 69, Immediate. -/
def execAdcImm (b : Byte) (s : State) : Host.Outcome State Fault Refusal :=
  arithmetic Config.hardware (.adcImm b) addToA s

/-- R161, row 65, ZeroPage. -/
def execAdcZp (b : Byte) (s : State) : Host.Outcome State Fault Refusal :=
  arithmetic Config.hardware (.adcZp b) addToA s

/-- R161, row 75, ZeroPageX. -/
def execAdcZpX (b : Byte) (s : State) : Host.Outcome State Fault Refusal :=
  arithmetic Config.hardware (.adcZpX b) addToA s

/-- R161, row 6D, Absolute. -/
def execAdcAbs (w : Word) (s : State) : Host.Outcome State Fault Refusal :=
  arithmetic Config.hardware (.adcAbs w) addToA s

/-- R161, row 7D, AbsoluteX. -/
def execAdcAbsX (w : Word) (s : State) : Host.Outcome State Fault Refusal :=
  arithmetic Config.hardware (.adcAbsX w) addToA s

/-- R161, row 79, AbsoluteY. -/
def execAdcAbsY (w : Word) (s : State) : Host.Outcome State Fault Refusal :=
  arithmetic Config.hardware (.adcAbsY w) addToA s

/-- R161, row 61, IndirectX. -/
def execAdcIndX (b : Byte) (s : State) : Host.Outcome State Fault Refusal :=
  arithmetic Config.hardware (.adcIndX b) addToA s

/-- R161, row 71, IndirectY. -/
def execAdcIndY (b : Byte) (s : State) : Host.Outcome State Fault Refusal :=
  arithmetic Config.hardware (.adcIndY b) addToA s

/-- R162, row E9, Immediate. -/
def execSbcImm (b : Byte) (s : State) : Host.Outcome State Fault Refusal :=
  arithmetic Config.hardware (.sbcImm b) subFromA s

/-- R162, row E5, ZeroPage. -/
def execSbcZp (b : Byte) (s : State) : Host.Outcome State Fault Refusal :=
  arithmetic Config.hardware (.sbcZp b) subFromA s

/-- R162, row F5, ZeroPageX. -/
def execSbcZpX (b : Byte) (s : State) : Host.Outcome State Fault Refusal :=
  arithmetic Config.hardware (.sbcZpX b) subFromA s

/-- R162, row ED, Absolute. -/
def execSbcAbs (w : Word) (s : State) : Host.Outcome State Fault Refusal :=
  arithmetic Config.hardware (.sbcAbs w) subFromA s

/-- R162, row FD, AbsoluteX. -/
def execSbcAbsX (w : Word) (s : State) : Host.Outcome State Fault Refusal :=
  arithmetic Config.hardware (.sbcAbsX w) subFromA s

/-- R162, row F9, AbsoluteY. -/
def execSbcAbsY (w : Word) (s : State) : Host.Outcome State Fault Refusal :=
  arithmetic Config.hardware (.sbcAbsY w) subFromA s

/-- R162, row E1, IndirectX. -/
def execSbcIndX (b : Byte) (s : State) : Host.Outcome State Fault Refusal :=
  arithmetic Config.hardware (.sbcIndX b) subFromA s

/-- R162, row F1, IndirectY. -/
def execSbcIndY (b : Byte) (s : State) : Host.Outcome State Fault Refusal :=
  arithmetic Config.hardware (.sbcIndY b) subFromA s

/-- R163, row 29, Immediate. -/
def execAndImm (b : Byte) (s : State) : Host.Outcome State Fault Refusal := readClass (.andImm b) (logicA aluAnd) s

/-- R163, row 25, ZeroPage. -/
def execAndZp (b : Byte) (s : State) : Host.Outcome State Fault Refusal := readClass (.andZp b) (logicA aluAnd) s

/-- R163, row 35, ZeroPageX. -/
def execAndZpX (b : Byte) (s : State) : Host.Outcome State Fault Refusal := readClass (.andZpX b) (logicA aluAnd) s

/-- R163, row 2D, Absolute. -/
def execAndAbs (w : Word) (s : State) : Host.Outcome State Fault Refusal := readClass (.andAbs w) (logicA aluAnd) s

/-- R163, row 3D, AbsoluteX. -/
def execAndAbsX (w : Word) (s : State) : Host.Outcome State Fault Refusal := readClass (.andAbsX w) (logicA aluAnd) s

/-- R163, row 39, AbsoluteY. -/
def execAndAbsY (w : Word) (s : State) : Host.Outcome State Fault Refusal := readClass (.andAbsY w) (logicA aluAnd) s

/-- R163, row 21, IndirectX. -/
def execAndIndX (b : Byte) (s : State) : Host.Outcome State Fault Refusal := readClass (.andIndX b) (logicA aluAnd) s

/-- R163, row 31, IndirectY. -/
def execAndIndY (b : Byte) (s : State) : Host.Outcome State Fault Refusal := readClass (.andIndY b) (logicA aluAnd) s

/-- R164, row 09, Immediate. -/
def execOraImm (b : Byte) (s : State) : Host.Outcome State Fault Refusal := readClass (.oraImm b) (logicA aluOr) s

/-- R164, row 05, ZeroPage. -/
def execOraZp (b : Byte) (s : State) : Host.Outcome State Fault Refusal := readClass (.oraZp b) (logicA aluOr) s

/-- R164, row 15, ZeroPageX. -/
def execOraZpX (b : Byte) (s : State) : Host.Outcome State Fault Refusal := readClass (.oraZpX b) (logicA aluOr) s

/-- R164, row 0D, Absolute. -/
def execOraAbs (w : Word) (s : State) : Host.Outcome State Fault Refusal := readClass (.oraAbs w) (logicA aluOr) s

/-- R164, row 1D, AbsoluteX. -/
def execOraAbsX (w : Word) (s : State) : Host.Outcome State Fault Refusal := readClass (.oraAbsX w) (logicA aluOr) s

/-- R164, row 19, AbsoluteY. -/
def execOraAbsY (w : Word) (s : State) : Host.Outcome State Fault Refusal := readClass (.oraAbsY w) (logicA aluOr) s

/-- R164, row 01, IndirectX. -/
def execOraIndX (b : Byte) (s : State) : Host.Outcome State Fault Refusal := readClass (.oraIndX b) (logicA aluOr) s

/-- R164, row 11, IndirectY. -/
def execOraIndY (b : Byte) (s : State) : Host.Outcome State Fault Refusal := readClass (.oraIndY b) (logicA aluOr) s

/-- R165, row 49, Immediate. -/
def execEorImm (b : Byte) (s : State) : Host.Outcome State Fault Refusal := readClass (.eorImm b) (logicA aluXor) s

/-- R165, row 45, ZeroPage. -/
def execEorZp (b : Byte) (s : State) : Host.Outcome State Fault Refusal := readClass (.eorZp b) (logicA aluXor) s

/-- R165, row 55, ZeroPageX. -/
def execEorZpX (b : Byte) (s : State) : Host.Outcome State Fault Refusal := readClass (.eorZpX b) (logicA aluXor) s

/-- R165, row 4D, Absolute. -/
def execEorAbs (w : Word) (s : State) : Host.Outcome State Fault Refusal := readClass (.eorAbs w) (logicA aluXor) s

/-- R165, row 5D, AbsoluteX. -/
def execEorAbsX (w : Word) (s : State) : Host.Outcome State Fault Refusal := readClass (.eorAbsX w) (logicA aluXor) s

/-- R165, row 59, AbsoluteY. -/
def execEorAbsY (w : Word) (s : State) : Host.Outcome State Fault Refusal := readClass (.eorAbsY w) (logicA aluXor) s

/-- R165, row 41, IndirectX. -/
def execEorIndX (b : Byte) (s : State) : Host.Outcome State Fault Refusal := readClass (.eorIndX b) (logicA aluXor) s

/-- R165, row 51, IndirectY. -/
def execEorIndY (b : Byte) (s : State) : Host.Outcome State Fault Refusal := readClass (.eorIndY b) (logicA aluXor) s

end Sys2Proof.Machine
end

