-- ==== Sys2Proof/Machine/Branch.lean ====
section
/-! DEFINITION. Conditional branches (46_branch.md R210 to R218). -/

namespace Sys2Proof.Machine

/-- R211, row 90, Relative. -/
def execBcc (b : Byte) (s : State) : Host.Outcome State Fault Refusal := branchClass (.bcc b) (!s.flag .C) s

/-- R212, row B0, Relative. -/
def execBcs (b : Byte) (s : State) : Host.Outcome State Fault Refusal := branchClass (.bcs b) (s.flag .C) s

/-- R213, row F0, Relative. -/
def execBeq (b : Byte) (s : State) : Host.Outcome State Fault Refusal := branchClass (.beq b) (s.flag .Z) s

/-- R214, row D0, Relative. -/
def execBne (b : Byte) (s : State) : Host.Outcome State Fault Refusal := branchClass (.bne b) (!s.flag .Z) s

/-- R215, row 30, Relative. -/
def execBmi (b : Byte) (s : State) : Host.Outcome State Fault Refusal := branchClass (.bmi b) (s.flag .N) s

/-- R216, row 10, Relative. -/
def execBpl (b : Byte) (s : State) : Host.Outcome State Fault Refusal := branchClass (.bpl b) (!s.flag .N) s

/-- R217, row 50, Relative. -/
def execBvc (b : Byte) (s : State) : Host.Outcome State Fault Refusal := branchClass (.bvc b) (!s.flag .V) s

/-- R218, row 70, Relative. -/
def execBvs (b : Byte) (s : State) : Host.Outcome State Fault Refusal := branchClass (.bvs b) (s.flag .V) s

end Sys2Proof.Machine
end

