-- ==== Sys2Proof/Machine/Compare.lean ====
section
/-! DEFINITION. Compares and bit test (45_compare_bit.md R201 to R204). -/

namespace Sys2Proof.Machine

/-- R201 to R203: the flags of a register's comparison with the operand; the register is not written. -/
def compareWith (reg m : Byte) (s : State) : State :=
  let (d, c) := aluCmp reg m
  (s.setFlag .C c).setZN d

/-- R204: Z from A & M, N and V from M itself. -/
def bitTest (m : Byte) (s : State) : State :=
  ((s.setFlag .Z (s.a &&& m == 0)).setFlag .N (m.getLsbD 7)).setFlag .V (m.getLsbD 6)

/-- R201, row C9, Immediate. -/
def execCmpImm (b : Byte) (s : State) : Host.Outcome State Fault Refusal := readClass (.cmpImm b) (compareWith s.a) s

/-- R201, row C5, ZeroPage. -/
def execCmpZp (b : Byte) (s : State) : Host.Outcome State Fault Refusal := readClass (.cmpZp b) (compareWith s.a) s

/-- R201, row D5, ZeroPageX. -/
def execCmpZpX (b : Byte) (s : State) : Host.Outcome State Fault Refusal := readClass (.cmpZpX b) (compareWith s.a) s

/-- R201, row CD, Absolute. -/
def execCmpAbs (w : Word) (s : State) : Host.Outcome State Fault Refusal := readClass (.cmpAbs w) (compareWith s.a) s

/-- R201, row DD, AbsoluteX. -/
def execCmpAbsX (w : Word) (s : State) : Host.Outcome State Fault Refusal := readClass (.cmpAbsX w) (compareWith s.a) s

/-- R201, row D9, AbsoluteY. -/
def execCmpAbsY (w : Word) (s : State) : Host.Outcome State Fault Refusal := readClass (.cmpAbsY w) (compareWith s.a) s

/-- R201, row C1, IndirectX. -/
def execCmpIndX (b : Byte) (s : State) : Host.Outcome State Fault Refusal := readClass (.cmpIndX b) (compareWith s.a) s

/-- R201, row D1, IndirectY. -/
def execCmpIndY (b : Byte) (s : State) : Host.Outcome State Fault Refusal := readClass (.cmpIndY b) (compareWith s.a) s

/-- R202, row E0, Immediate. -/
def execCpxImm (b : Byte) (s : State) : Host.Outcome State Fault Refusal := readClass (.cpxImm b) (compareWith s.x) s

/-- R202, row E4, ZeroPage. -/
def execCpxZp (b : Byte) (s : State) : Host.Outcome State Fault Refusal := readClass (.cpxZp b) (compareWith s.x) s

/-- R202, row EC, Absolute. -/
def execCpxAbs (w : Word) (s : State) : Host.Outcome State Fault Refusal := readClass (.cpxAbs w) (compareWith s.x) s

/-- R203, row C0, Immediate. -/
def execCpyImm (b : Byte) (s : State) : Host.Outcome State Fault Refusal := readClass (.cpyImm b) (compareWith s.y) s

/-- R203, row C4, ZeroPage. -/
def execCpyZp (b : Byte) (s : State) : Host.Outcome State Fault Refusal := readClass (.cpyZp b) (compareWith s.y) s

/-- R203, row CC, Absolute. -/
def execCpyAbs (w : Word) (s : State) : Host.Outcome State Fault Refusal := readClass (.cpyAbs w) (compareWith s.y) s

/-- R204, row 24, ZeroPage. -/
def execBitZp (b : Byte) (s : State) : Host.Outcome State Fault Refusal := readClass (.bitZp b) bitTest s

/-- R204, row 2C, Absolute. -/
def execBitAbs (w : Word) (s : State) : Host.Outcome State Fault Refusal := readClass (.bitAbs w) bitTest s

end Sys2Proof.Machine
end

