-- ==== Sys2Proof/Machine/Control.lean ====
section
/-! DEFINITION. Jumps, subroutines, software interrupt and no-op (49_control_transfer.md R251 to R256). -/

namespace Sys2Proof.Machine

/-- R251. -/
def jumpTo (ea : Word) (s : State) : State := s.setPC ea

/-- R252: the address of the JSR's last byte is pushed. -/
def callTo (ea : Word) (s : State) : State := (push16 (s.pc - 1) s).setPC ea

/-- R253. -/
def returnFromSubroutine (s : State) : State :=
  let (v, s') := pop16 s
  s'.setPC (v + 1)

/-- R254: PC is one past the opcode's address when BRK runs, so the opcode's address is PC - 1. -/
def softwareInterrupt (cfg : Config) (s : State) : State :=
  enterInterrupt (s.pc - 1 + cfg.brkReturnOffset) (pushedByBreak s.status) irqVector s

/-- R251, row 4C, Absolute. -/
def execJmpAbs (w : Word) (s : State) : Host.Outcome State Fault Refusal := jumpClass (.jmpAbs w) jumpTo s

/-- R251, row 6C, Indirect. -/
def execJmpInd (w : Word) (s : State) : Host.Outcome State Fault Refusal := jumpClass (.jmpInd w) jumpTo s

/-- R252, row 20, Absolute. -/
def execJsr (w : Word) (s : State) : Host.Outcome State Fault Refusal := jumpClass (.jsr w) callTo s

/-- R253, row 60, Implied. -/
def execRts (s : State) : Host.Outcome State Fault Refusal := impliedClass .rts returnFromSubroutine s

/-- R254, row 00, Implied. -/
def execBrk (s : State) : Host.Outcome State Fault Refusal :=
  impliedClass .brk (softwareInterrupt Config.hardware) s

/-- R255, row 40, Implied. -/
def execRti (s : State) : Host.Outcome State Fault Refusal := impliedClass .rti returnFromInterrupt s

/-- R256, row EA, Implied. -/
def execNop (s : State) : Host.Outcome State Fault Refusal := impliedClass .nop id s

end Sys2Proof.Machine
end

