-- ==== Sys2Proof/Machine/FlagOps.lean ====
section
/-! DEFINITION. Flag instructions (47_flag.md R231 to R237). -/

namespace Sys2Proof.Machine

/-- R231, row 18, Implied. -/
def execClc (s : State) : Host.Outcome State Fault Refusal :=
  impliedClass .clc (fun s => s.setFlag .C false) s

/-- R232, row D8, Implied. -/
def execCld (s : State) : Host.Outcome State Fault Refusal :=
  impliedClass .cld (fun s => s.setFlag .D false) s

/-- R233, row 58, Implied. -/
def execCli (s : State) : Host.Outcome State Fault Refusal :=
  impliedClass .cli (fun s => s.setFlag .I false) s

/-- R234, row B8, Implied. -/
def execClv (s : State) : Host.Outcome State Fault Refusal :=
  impliedClass .clv (fun s => s.setFlag .V false) s

/-- R235, row 38, Implied. -/
def execSec (s : State) : Host.Outcome State Fault Refusal :=
  impliedClass .sec (fun s => s.setFlag .C true) s

/-- R236, row F8, Implied. -/
def execSed (s : State) : Host.Outcome State Fault Refusal :=
  impliedClass .sed (fun s => s.setFlag .D true) s

/-- R237, row 78, Implied. -/
def execSei (s : State) : Host.Outcome State Fault Refusal :=
  impliedClass .sei (fun s => s.setFlag .I true) s

end Sys2Proof.Machine
end

