-- ==== Sys2Proof/Machine/IncDec.lean ====
section
/-! DEFINITION. Increments and decrements (44_increment_decrement.md R191 to R196); none touches the carry. -/

namespace Sys2Proof.Machine

/-- R191, row E6, ZeroPage. -/
def execIncZp (b : Byte) (s : State) : Host.Outcome State Fault Refusal := incDecClass (.incZp b) aluInc s

/-- R191, row F6, ZeroPageX. -/
def execIncZpX (b : Byte) (s : State) : Host.Outcome State Fault Refusal := incDecClass (.incZpX b) aluInc s

/-- R191, row EE, Absolute. -/
def execIncAbs (w : Word) (s : State) : Host.Outcome State Fault Refusal := incDecClass (.incAbs w) aluInc s

/-- R191, row FE, AbsoluteX. -/
def execIncAbsX (w : Word) (s : State) : Host.Outcome State Fault Refusal := incDecClass (.incAbsX w) aluInc s

/-- R192, row C6, ZeroPage. -/
def execDecZp (b : Byte) (s : State) : Host.Outcome State Fault Refusal := incDecClass (.decZp b) aluDec s

/-- R192, row D6, ZeroPageX. -/
def execDecZpX (b : Byte) (s : State) : Host.Outcome State Fault Refusal := incDecClass (.decZpX b) aluDec s

/-- R192, row CE, Absolute. -/
def execDecAbs (w : Word) (s : State) : Host.Outcome State Fault Refusal := incDecClass (.decAbs w) aluDec s

/-- R192, row DE, AbsoluteX. -/
def execDecAbsX (w : Word) (s : State) : Host.Outcome State Fault Refusal := incDecClass (.decAbsX w) aluDec s

/-- R193, row E8, Implied. -/
def execInx (s : State) : Host.Outcome State Fault Refusal :=
  impliedClass .inx (fun s => (s.setX (aluInc s.x)).setZN (aluInc s.x)) s

/-- R194, row C8, Implied. -/
def execIny (s : State) : Host.Outcome State Fault Refusal :=
  impliedClass .iny (fun s => (s.setY (aluInc s.y)).setZN (aluInc s.y)) s

/-- R195, row CA, Implied. -/
def execDex (s : State) : Host.Outcome State Fault Refusal :=
  impliedClass .dex (fun s => (s.setX (aluDec s.x)).setZN (aluDec s.x)) s

/-- R196, row 88, Implied. -/
def execDey (s : State) : Host.Outcome State Fault Refusal :=
  impliedClass .dey (fun s => (s.setY (aluDec s.y)).setZN (aluDec s.y)) s

end Sys2Proof.Machine
end

