-- ==== Sys2Proof/Machine/LoadStore.lean ====
section
/-! DEFINITION. Loads and stores (41_load_store_transfer.md R141 to R146). -/

namespace Sys2Proof.Machine

/-- R141. -/
def loadA (m : Byte) (s : State) : State := (s.setA m).setZN m

/-- R142. -/
def loadX (m : Byte) (s : State) : State := (s.setX m).setZN m

/-- R143. -/
def loadY (m : Byte) (s : State) : State := (s.setY m).setZN m

/-- R141, row A9, Immediate. -/
def execLdaImm (b : Byte) (s : State) : Host.Outcome State Fault Refusal := readClass (.ldaImm b) loadA s

/-- R141, row A5, ZeroPage. -/
def execLdaZp (b : Byte) (s : State) : Host.Outcome State Fault Refusal := readClass (.ldaZp b) loadA s

/-- R141, row B5, ZeroPageX. -/
def execLdaZpX (b : Byte) (s : State) : Host.Outcome State Fault Refusal := readClass (.ldaZpX b) loadA s

/-- R141, row AD, Absolute. -/
def execLdaAbs (w : Word) (s : State) : Host.Outcome State Fault Refusal := readClass (.ldaAbs w) loadA s

/-- R141, row BD, AbsoluteX. -/
def execLdaAbsX (w : Word) (s : State) : Host.Outcome State Fault Refusal := readClass (.ldaAbsX w) loadA s

/-- R141, row B9, AbsoluteY. -/
def execLdaAbsY (w : Word) (s : State) : Host.Outcome State Fault Refusal := readClass (.ldaAbsY w) loadA s

/-- R141, row A1, IndirectX. -/
def execLdaIndX (b : Byte) (s : State) : Host.Outcome State Fault Refusal := readClass (.ldaIndX b) loadA s

/-- R141, row B1, IndirectY. -/
def execLdaIndY (b : Byte) (s : State) : Host.Outcome State Fault Refusal := readClass (.ldaIndY b) loadA s

/-- R142, row A2, Immediate. -/
def execLdxImm (b : Byte) (s : State) : Host.Outcome State Fault Refusal := readClass (.ldxImm b) loadX s

/-- R142, row A6, ZeroPage. -/
def execLdxZp (b : Byte) (s : State) : Host.Outcome State Fault Refusal := readClass (.ldxZp b) loadX s

/-- R142, row B6, ZeroPageY. -/
def execLdxZpY (b : Byte) (s : State) : Host.Outcome State Fault Refusal := readClass (.ldxZpY b) loadX s

/-- R142, row AE, Absolute. -/
def execLdxAbs (w : Word) (s : State) : Host.Outcome State Fault Refusal := readClass (.ldxAbs w) loadX s

/-- R142, row BE, AbsoluteY. -/
def execLdxAbsY (w : Word) (s : State) : Host.Outcome State Fault Refusal := readClass (.ldxAbsY w) loadX s

/-- R143, row A0, Immediate. -/
def execLdyImm (b : Byte) (s : State) : Host.Outcome State Fault Refusal := readClass (.ldyImm b) loadY s

/-- R143, row A4, ZeroPage. -/
def execLdyZp (b : Byte) (s : State) : Host.Outcome State Fault Refusal := readClass (.ldyZp b) loadY s

/-- R143, row B4, ZeroPageX. -/
def execLdyZpX (b : Byte) (s : State) : Host.Outcome State Fault Refusal := readClass (.ldyZpX b) loadY s

/-- R143, row AC, Absolute. -/
def execLdyAbs (w : Word) (s : State) : Host.Outcome State Fault Refusal := readClass (.ldyAbs w) loadY s

/-- R143, row BC, AbsoluteX. -/
def execLdyAbsX (w : Word) (s : State) : Host.Outcome State Fault Refusal := readClass (.ldyAbsX w) loadY s

/-- R144, row 85, ZeroPage. -/
def execStaZp (b : Byte) (s : State) : Host.Outcome State Fault Refusal := writeClass (.staZp b) s.a s

/-- R144, row 95, ZeroPageX. -/
def execStaZpX (b : Byte) (s : State) : Host.Outcome State Fault Refusal := writeClass (.staZpX b) s.a s

/-- R144, row 8D, Absolute. -/
def execStaAbs (w : Word) (s : State) : Host.Outcome State Fault Refusal := writeClass (.staAbs w) s.a s

/-- R144, row 9D, AbsoluteX. -/
def execStaAbsX (w : Word) (s : State) : Host.Outcome State Fault Refusal := writeClass (.staAbsX w) s.a s

/-- R144, row 99, AbsoluteY. -/
def execStaAbsY (w : Word) (s : State) : Host.Outcome State Fault Refusal := writeClass (.staAbsY w) s.a s

/-- R144, row 81, IndirectX. -/
def execStaIndX (b : Byte) (s : State) : Host.Outcome State Fault Refusal := writeClass (.staIndX b) s.a s

/-- R144, row 91, IndirectY. -/
def execStaIndY (b : Byte) (s : State) : Host.Outcome State Fault Refusal := writeClass (.staIndY b) s.a s

/-- R145, row 86, ZeroPage. -/
def execStxZp (b : Byte) (s : State) : Host.Outcome State Fault Refusal := writeClass (.stxZp b) s.x s

/-- R145, row 96, ZeroPageY. -/
def execStxZpY (b : Byte) (s : State) : Host.Outcome State Fault Refusal := writeClass (.stxZpY b) s.x s

/-- R145, row 8E, Absolute. -/
def execStxAbs (w : Word) (s : State) : Host.Outcome State Fault Refusal := writeClass (.stxAbs w) s.x s

/-- R146, row 84, ZeroPage. -/
def execStyZp (b : Byte) (s : State) : Host.Outcome State Fault Refusal := writeClass (.styZp b) s.y s

/-- R146, row 94, ZeroPageX. -/
def execStyZpX (b : Byte) (s : State) : Host.Outcome State Fault Refusal := writeClass (.styZpX b) s.y s

/-- R146, row 8C, Absolute. -/
def execStyAbs (w : Word) (s : State) : Host.Outcome State Fault Refusal := writeClass (.styAbs w) s.y s

end Sys2Proof.Machine
end

