-- ==== Sys2Proof/Machine/Shift.lean ====
section
/-! DEFINITION. Shifts and rotates (43_shift_rotate.md R180 to R184). -/

namespace Sys2Proof.Machine

/-- R181, row 0A, Accumulator. -/
def execAslAcc (s : State) : Host.Outcome State Fault Refusal := shiftClass .aslAcc aluAsl s

/-- R181, row 06, ZeroPage. -/
def execAslZp (b : Byte) (s : State) : Host.Outcome State Fault Refusal := shiftClass (.aslZp b) aluAsl s

/-- R181, row 16, ZeroPageX. -/
def execAslZpX (b : Byte) (s : State) : Host.Outcome State Fault Refusal := shiftClass (.aslZpX b) aluAsl s

/-- R181, row 0E, Absolute. -/
def execAslAbs (w : Word) (s : State) : Host.Outcome State Fault Refusal := shiftClass (.aslAbs w) aluAsl s

/-- R181, row 1E, AbsoluteX. -/
def execAslAbsX (w : Word) (s : State) : Host.Outcome State Fault Refusal := shiftClass (.aslAbsX w) aluAsl s

/-- R182, row 4A, Accumulator. -/
def execLsrAcc (s : State) : Host.Outcome State Fault Refusal := shiftClass .lsrAcc aluLsr s

/-- R182, row 46, ZeroPage. -/
def execLsrZp (b : Byte) (s : State) : Host.Outcome State Fault Refusal := shiftClass (.lsrZp b) aluLsr s

/-- R182, row 56, ZeroPageX. -/
def execLsrZpX (b : Byte) (s : State) : Host.Outcome State Fault Refusal := shiftClass (.lsrZpX b) aluLsr s

/-- R182, row 4E, Absolute. -/
def execLsrAbs (w : Word) (s : State) : Host.Outcome State Fault Refusal := shiftClass (.lsrAbs w) aluLsr s

/-- R182, row 5E, AbsoluteX. -/
def execLsrAbsX (w : Word) (s : State) : Host.Outcome State Fault Refusal := shiftClass (.lsrAbsX w) aluLsr s

/-- R183, row 2A, Accumulator. -/
def execRolAcc (s : State) : Host.Outcome State Fault Refusal := shiftClass .rolAcc aluRol s

/-- R183, row 26, ZeroPage. -/
def execRolZp (b : Byte) (s : State) : Host.Outcome State Fault Refusal := shiftClass (.rolZp b) aluRol s

/-- R183, row 36, ZeroPageX. -/
def execRolZpX (b : Byte) (s : State) : Host.Outcome State Fault Refusal := shiftClass (.rolZpX b) aluRol s

/-- R183, row 2E, Absolute. -/
def execRolAbs (w : Word) (s : State) : Host.Outcome State Fault Refusal := shiftClass (.rolAbs w) aluRol s

/-- R183, row 3E, AbsoluteX. -/
def execRolAbsX (w : Word) (s : State) : Host.Outcome State Fault Refusal := shiftClass (.rolAbsX w) aluRol s

/-- R184, row 6A, Accumulator. -/
def execRorAcc (s : State) : Host.Outcome State Fault Refusal := shiftClass .rorAcc aluRor s

/-- R184, row 66, ZeroPage. -/
def execRorZp (b : Byte) (s : State) : Host.Outcome State Fault Refusal := shiftClass (.rorZp b) aluRor s

/-- R184, row 76, ZeroPageX. -/
def execRorZpX (b : Byte) (s : State) : Host.Outcome State Fault Refusal := shiftClass (.rorZpX b) aluRor s

/-- R184, row 6E, Absolute. -/
def execRorAbs (w : Word) (s : State) : Host.Outcome State Fault Refusal := shiftClass (.rorAbs w) aluRor s

/-- R184, row 7E, AbsoluteX. -/
def execRorAbsX (w : Word) (s : State) : Host.Outcome State Fault Refusal := shiftClass (.rorAbsX w) aluRor s

end Sys2Proof.Machine
end

