-- ==== Sys2Proof/Machine/Stack.lean ====
section
/-! DEFINITION. Stack instructions (48_stack.md R241 to R244). -/

namespace Sys2Proof.Machine

/-- R241. -/
def pushA (s : State) : State := push8 s.a s

/-- R242. -/
def pullA (s : State) : State :=
  let (v, s') := pop8 s
  (s'.setA v).setZN v

/-- R243: the pushed byte has Break and Unused set; P is not changed. -/
def pushP (s : State) : State := push8 (pushedByBreak s.status) s

/-- R244: Break forced to 0 and Unused to 1. -/
def pullP (s : State) : State :=
  let (v, s') := pop8 s
  s'.setP ((v &&& ~~~0x10#8) ||| 0x20)

/-- R241, row 48, Implied. -/
def execPha (s : State) : Host.Outcome State Fault Refusal := impliedClass .pha pushA s

/-- R242, row 68, Implied. -/
def execPla (s : State) : Host.Outcome State Fault Refusal := impliedClass .pla pullA s

/-- R243, row 08, Implied. -/
def execPhp (s : State) : Host.Outcome State Fault Refusal := impliedClass .php pushP s

/-- R244, row 28, Implied. -/
def execPlp (s : State) : Host.Outcome State Fault Refusal := impliedClass .plp pullP s

end Sys2Proof.Machine
end

