-- ==== Sys2Proof/Machine/Transfer.lean ====
section
/-! DEFINITION. Register transfers (41_load_store_transfer.md R147 to R152); TXS alone leaves Z and N. -/

namespace Sys2Proof.Machine

/-- R147, row AA, Implied. -/
def execTax (s : State) : Host.Outcome State Fault Refusal :=
  impliedClass .tax (fun s => (s.setX s.a).setZN s.a) s

/-- R148, row A8, Implied. -/
def execTay (s : State) : Host.Outcome State Fault Refusal :=
  impliedClass .tay (fun s => (s.setY s.a).setZN s.a) s

/-- R149, row 8A, Implied. -/
def execTxa (s : State) : Host.Outcome State Fault Refusal :=
  impliedClass .txa (fun s => (s.setA s.x).setZN s.x) s

/-- R150, row 98, Implied. -/
def execTya (s : State) : Host.Outcome State Fault Refusal :=
  impliedClass .tya (fun s => (s.setA s.y).setZN s.y) s

/-- R151, row BA, Implied. -/
def execTsx (s : State) : Host.Outcome State Fault Refusal :=
  impliedClass .tsx (fun s => (s.setX s.sp).setZN s.sp) s

/-- R152, row 9A, Implied. -/
def execTxs (s : State) : Host.Outcome State Fault Refusal :=
  impliedClass .txs (fun s => s.setSP s.x) s

end Sys2Proof.Machine
end

