-- ==== Sys2Proof/Machine/Fetch.lean ====
section
/-! DEFINITION. The fetch unit, the operand bytes, and one call of `step()` with what it returns and the state it
leaves (40_execution_control.md R100 to R103, R124, R128, R129; 60_exceptions.md R270 to R272). -/

namespace Sys2Proof.Machine

/-- R100: one byte read at PC, and PC advanced. -/
def fetchByte (s : State) : Byte × State :=
  let (v, s') := read8 s.pc s
  (v, s'.setPC (s.pc + 1))

/-- R105, R131: the operand bytes of a mode read at PC in order, PC advanced past them, and the operand assembled. -/
def fetchOperand (m : Mode) (s : State) : Operand × State :=
  match m.operandBytes with
  | 0 => (m.assemble 0 0, s)
  | 1 => let (o1, s1) := fetchByte s; (m.assemble o1 0, s1)
  | _ =>
    let (o1, s1) := fetchByte s
    let (o2, s2) := fetchByte s1
    (m.assemble o1 o2, s2)

/-- R124, R129: what a call of `step()` returns, with the state it leaves. -/
inductive StepReply where
  /-- `Ok(n)`: the instruction has run and cost n cycles. -/
  | ok (s : State) (n : Nat)
  /-- `Halted(fault)`: no instruction has run. -/
  | halted (s : State) (f : Fault)
  /-- No meaning: before the first reset, or refused by the instruction. -/
  | refused (r : Refusal)
  deriving DecidableEq, Repr

/-- R28, R270: the fault latch set. -/
def State.latch (s : State) (r : UnknownOpcode) : State := { s with fault := some r }

/-- R124: after Fetch and Resolve's operand bytes, the instruction runs; its cost is what it adds to the counter. -/
def runInstr (i : Instr) (s : State) : StepReply :=
  match exec i s with
  | .next t => .ok t (t.cycles - s.cycles)
  | .fault f => .halted s f
  | .refused r => .refused r

/-- R124: one instruction fetched, decoded and run on a core that is live. -/
def fetchAndRun (s : State) : StepReply :=
  let (op, s1) := fetchByte s
  match lookup op with
  | none => .halted (s1.latch ⟨op, s.pc⟩) (.unknownOpcode ⟨op, s.pc⟩)
  | some row =>
    let (o, s2) := fetchOperand row.mode s1
    match Instr.ofForm row.mnemonic o with
    | none => .halted s2 (.invariantViolation op)
    | some i => runInstr i s2

/-- R124: `step()`.  Refused before the first reset (R32); on a halted core, the latched fault again with no bus access
and no change (R271). -/
def stepCall (s : State) : StepReply :=
  if s.created then
    match s.fault with
    | some r => .halted s (.unknownOpcode r)
    | none => fetchAndRun s
  else .refused .beforeReset

/-- The outcome of a step as the host reads it: a fault carries its reason and no state (log 10). -/
def StepReply.outcome : StepReply → Host.Outcome State Fault Refusal
  | .ok s _ => .next s
  | .halted _ f => .fault f
  | .refused r => .refused r

/-- The bytes of a word stored in RAM at an address and after it, wrapping at 2^16 (R70). -/
def storeBytes (a : Word) (bs : List Byte) (m : Memory) : Memory :=
  match bs with
  | [] => m
  | b :: rest => storeBytes (a + 1) rest (Memory.write m a.toNat b)

/-- The first `n` answers of the bus replaced by RAM's. -/
def answerFromRam (n : Nat) (answers : List (Option Byte)) : List (Option Byte) :=
  List.replicate (min n answers.length) none ++ answers.drop n

/-- How many bytes the step fetches for an opcode byte (R70). -/
def fetchedBytes (op : Byte) : Nat := ((lookup op).map Row.length).getD 1

end Sys2Proof.Machine
end

