-- ==== Sys2Proof/Machine/Step.lean ====
section
/-! DEFINITION. One step of the machine, and an instruction put where the step fetches. -/

namespace Sys2Proof.Machine

/-- R124: one call of `step()`. -/
def step (s : State) : Host.Outcome State Fault Refusal := (stepCall s).outcome

/-- The state with an instruction placed for the next step (log 19): its bytes, numbered as spec/opcode_table.json
numbers them, stored at PC, PC + 1 and PC + 2; the fetch answered from RAM; the core created and not halted. -/
def State.withFetchWord (s : State) (nbits w : Nat) : State :=
  let v := w % 2 ^ nbits
  let op := BitVec.ofNat 8 v
  { s with
    ram := storeBytes s.pc [op, BitVec.ofNat 8 (v / 2 ^ 8), BitVec.ofNat 8 (v / 2 ^ 16)] s.ram
    answers := answerFromRam (fetchedBytes op) s.answers
    created := true
    fault := none }

end Sys2Proof.Machine
end

