-- ==== Sys2Proof/Machine/Entry.lean ====
section
/-! DEFINITION. The core's other entry points: `reset()` (70_reset_and_hazards.md R300 to R305), interrupt service
(60_exceptions.md R274 to R287), the caller's sequence of calls (U8), the read accessors (10_state.md R26, R32) and
`format_state()` (R33). -/

namespace Sys2Proof.Machine

/-! ## Reset -/

/-- R300: `reset()`: the RESET vector read, then the registers, the counter and the latch set. -/
def resetCall (s : State) : State :=
  let (target, s') := read16 resetVector s
  { s' with
    pc := target
    a := 0
    x := 0
    y := 0
    sp := 0xFD
    p := putFlag .I true (putFlag .U true 0x00)
    cycles := 0
    fault := none
    created := true }

/-! ## Interrupt service -/

/-- R274: the two interrupt sources. -/
inductive InterruptKind where
  | nmi | irq
  deriving DecidableEq, Repr

/-- R59, R277: the vector of an interrupt. -/
def InterruptKind.vector : InterruptKind → Word
  | .nmi => nmiVector
  | .irq => irqVector

/-- R276, R277, R287: what `service_interrupt` returns, with the state it leaves. -/
inductive InterruptReply where
  | ok (s : State) (n : Nat)
  | masked (s : State)
  | halted (s : State) (f : Fault)
  | refused (r : Refusal)
  deriving DecidableEq, Repr

/-- R277: the entry of an interrupt that is taken. -/
def takeInterrupt (k : InterruptKind) (s : State) : State :=
  (enterInterrupt s.pc (pushedByInterrupt s.status) k.vector s).addCycles 7

/-- R277: `service_interrupt(kind)`. -/
def serviceInterrupt (k : InterruptKind) (s : State) : InterruptReply :=
  if s.created then
    match s.fault with
    | some r => .halted s (.unknownOpcode r)
    | none => if k = .irq ∧ s.flag .I = true then .masked s else .ok (takeInterrupt k s) 7
  else .refused .beforeReset

/-! ## The caller -/

/-- R274, R300, U8: the calls a caller may make, in any order. -/
inductive Call where
  | reset
  | step
  | service (k : InterruptKind)
  deriving DecidableEq, Repr

/-- The state a call leaves; a refused call leaves none (R32). -/
def Call.run (c : Call) (s : State) : Except Refusal State :=
  match c with
  | .reset => .ok (resetCall s)
  | .step =>
    match stepCall s with
    | .ok t _ => .ok t
    | .halted t _ => .ok t
    | .refused r => .error r
  | .service k =>
    match serviceInterrupt k s with
    | .ok t _ => .ok t
    | .masked t => .ok t
    | .halted t _ => .ok t
    | .refused r => .error r

/-- U8: the caller's sequence of calls. -/
def runCalls (cs : List Call) (s : State) : Except Refusal State :=
  match cs with
  | [] => .ok s
  | c :: rest =>
    match c.run s with
    | .ok t => runCalls rest t
    | .error r => .error r

/-! ## Accessors (R26, R32): no side effect, and refused before the first reset -/

/-- R32: a value read through an accessor. -/
def State.accessor {α : Type} (s : State) (v : α) : Except Refusal α :=
  if s.created then .ok v else .error .beforeReset

def readPC (s : State) : Except Refusal Word := s.accessor s.pc
def readSP (s : State) : Except Refusal Byte := s.accessor s.sp
def readA (s : State) : Except Refusal Byte := s.accessor s.a
def readX (s : State) : Except Refusal Byte := s.accessor s.x
def readY (s : State) : Except Refusal Byte := s.accessor s.y
def readStatus (s : State) : Except Refusal Byte := s.accessor s.status
def readFlag (f : Flag) (s : State) : Except Refusal Bool := s.accessor (s.flag f)

/-! ## The text form (R33) -/

/-- `%X` of one digit, upper case. -/
def hexDigit (n : Nat) : Char := if n < 10 then Char.ofNat (0x30 + n) else Char.ofNat (0x41 + (n - 10))

/-- `%02X`. -/
def hex2 (b : Byte) : List Char := [hexDigit (b.toNat / 16), hexDigit (b.toNat % 16)]

/-- R33: the characters of `A:%02X X:%02X Y:%02X P:%02X SP:%02X CYC:%d`. -/
def formatChars (s : State) : List Char :=
  ['A', ':'] ++ hex2 s.a ++ [' ', 'X', ':'] ++ hex2 s.x ++ [' ', 'Y', ':'] ++ hex2 s.y ++
  [' ', 'P', ':'] ++ hex2 s.status ++ [' ', 'S', 'P', ':'] ++ hex2 s.sp ++
  [' ', 'C', 'Y', 'C', ':'] ++ Nat.toDigits 10 s.cycles

/-- R33: `format_state()`. -/
def formatState (s : State) : Except Refusal String := s.accessor (String.ofList (formatChars s))

end Sys2Proof.Machine
end

