-- ==== Sys2Proof/Machine/Asm.lean ====
section
/-! DEFINITION. Assembler text (30_encoding.md R77): the spelling of an instruction, and the instruction a statement
spells.  Text is a list of characters.  It has no effect on the machine (92_eei_decisions.md D20). -/

namespace Sys2Proof.Machine

/-- R77, R1: the name of a mnemonic. -/
def mnemonicText : Mnemonic → List Char
  | .lda => ['L', 'D', 'A']
  | .ldx => ['L', 'D', 'X']
  | .ldy => ['L', 'D', 'Y']
  | .sta => ['S', 'T', 'A']
  | .stx => ['S', 'T', 'X']
  | .sty => ['S', 'T', 'Y']
  | .tax => ['T', 'A', 'X']
  | .tay => ['T', 'A', 'Y']
  | .txa => ['T', 'X', 'A']
  | .tya => ['T', 'Y', 'A']
  | .tsx => ['T', 'S', 'X']
  | .txs => ['T', 'X', 'S']
  | .adc => ['A', 'D', 'C']
  | .sbc => ['S', 'B', 'C']
  | .and => ['A', 'N', 'D']
  | .ora => ['O', 'R', 'A']
  | .eor => ['E', 'O', 'R']
  | .asl => ['A', 'S', 'L']
  | .lsr => ['L', 'S', 'R']
  | .rol => ['R', 'O', 'L']
  | .ror => ['R', 'O', 'R']
  | .inc => ['I', 'N', 'C']
  | .dec => ['D', 'E', 'C']
  | .inx => ['I', 'N', 'X']
  | .iny => ['I', 'N', 'Y']
  | .dex => ['D', 'E', 'X']
  | .dey => ['D', 'E', 'Y']
  | .cmp => ['C', 'M', 'P']
  | .cpx => ['C', 'P', 'X']
  | .cpy => ['C', 'P', 'Y']
  | .bit => ['B', 'I', 'T']
  | .bcc => ['B', 'C', 'C']
  | .bcs => ['B', 'C', 'S']
  | .beq => ['B', 'E', 'Q']
  | .bne => ['B', 'N', 'E']
  | .bmi => ['B', 'M', 'I']
  | .bpl => ['B', 'P', 'L']
  | .bvc => ['B', 'V', 'C']
  | .bvs => ['B', 'V', 'S']
  | .clc => ['C', 'L', 'C']
  | .cld => ['C', 'L', 'D']
  | .cli => ['C', 'L', 'I']
  | .clv => ['C', 'L', 'V']
  | .sec => ['S', 'E', 'C']
  | .sed => ['S', 'E', 'D']
  | .sei => ['S', 'E', 'I']
  | .pha => ['P', 'H', 'A']
  | .pla => ['P', 'L', 'A']
  | .php => ['P', 'H', 'P']
  | .plp => ['P', 'L', 'P']
  | .jmp => ['J', 'M', 'P']
  | .jsr => ['J', 'S', 'R']
  | .rts => ['R', 'T', 'S']
  | .brk => ['B', 'R', 'K']
  | .rti => ['R', 'T', 'I']
  | .nop => ['N', 'O', 'P']

/-- Every mnemonic. -/
def allMnemonics : List Mnemonic :=
  [.lda, .ldx, .ldy, .sta, .stx, .sty, .tax, .tay, .txa, .tya, .tsx, .txs, .adc, .sbc, .and, .ora, .eor, .asl, .lsr,
   .rol, .ror, .inc, .dec, .inx, .iny, .dex, .dey, .cmp, .cpx, .cpy, .bit, .bcc, .bcs, .beq, .bne, .bmi, .bpl, .bvc,
   .bvs, .clc, .cld, .cli, .clv, .sec, .sed, .sei, .pha, .pla, .php, .plp, .jmp, .jsr, .rts, .brk, .rti, .nop]

/-- Four hexadecimal digits. -/
def hex4 (w : Word) : List Char := hex2 w.hi ++ hex2 w.lo

/-- R77: the operand of an instruction at an address.  A branch is written with its target. -/
def operandText (addr : Word) : Operand → List Char
  | .acc => ['A']
  | .impl => []
  | .imm b => ['#', '$'] ++ hex2 b
  | .zp b => '$' :: hex2 b
  | .zpX b => '$' :: hex2 b ++ [',', 'X']
  | .zpY b => '$' :: hex2 b ++ [',', 'Y']
  | .abs w => '$' :: hex4 w
  | .absX w => '$' :: hex4 w ++ [',', 'X']
  | .absY w => '$' :: hex4 w ++ [',', 'Y']
  | .ind w => ['(', '$'] ++ hex4 w ++ [')']
  | .indX b => ['(', '$'] ++ hex2 b ++ [',', 'X', ')']
  | .indY b => ['(', '$'] ++ hex2 b ++ [')', ',', 'Y']
  | .rel b => '$' :: hex4 (addr + 2 + sext16 b)

/-- R77: the spelling of an instruction at an address: mnemonic, a space, operand. -/
def instrText (addr : Word) (i : Instr) : List Char :=
  match operandText addr i.operand with
  | [] => mnemonicText i.mnemonic
  | o => mnemonicText i.mnemonic ++ ' ' :: o

/-- R77: an operand as it is written: a number carries how many digits it is written with. -/
inductive Written where
  | empty
  | a
  | imm (digits n : Nat)
  | direct (digits n : Nat)
  | directX (digits n : Nat)
  | directY (digits n : Nat)
  | ind (digits n : Nat)
  | indX (digits n : Nat)
  | indY (digits n : Nat)
  | label (name : List Char)
  deriving DecidableEq, Repr

/-- The value of a hexadecimal digit.  DESIGN CHOICE (log 18, safe): 0 to 9 and A to F are digits and a to f are not;
R77 says 'hexadecimal digits' and names no letter case. -/
def hexValue (c : Char) : Option Nat := (List.range 16).find? (fun n => hexDigit n == c)

/-- The hexadecimal digits at the front of a text: how many, the number they write on from `n`, and the rest. -/
def takeHex (digits n : Nat) (cs : List Char) : Nat × Nat × List Char :=
  match cs with
  | [] => (digits, n, [])
  | c :: rest =>
    match hexValue c with
    | none => (digits, n, c :: rest)
    | some v => takeHex (digits + 1) (16 * n + v) rest

/-- R77: what follows the digits of an operand that starts with `(`. -/
def readIndirectEnd (d n : Nat) (cs : List Char) : Option Written :=
  if cs = [')'] then some (.ind d n)
  else if cs = [',', 'X', ')'] then some (.indX d n)
  else if cs = [')', ',', 'Y'] then some (.indY d n)
  else none

/-- R77: what follows the digits of an operand that starts with `$`. -/
def readDirectEnd (d n : Nat) (cs : List Char) : Option Written :=
  if cs = [] then some (.direct d n)
  else if cs = [',', 'X'] then some (.directX d n)
  else if cs = [',', 'Y'] then some (.directY d n)
  else none

/-- R77: an operand read.  DESIGN CHOICE (log 18, safe): R77 does not say which names a label may have; a text is a label
only where it is none of the other forms, so `A` is Accumulator after every mnemonic, a branch among them, and a text
that starts with `$`, `#$` or `($` is never a label. -/
def readOperandText (cs : List Char) : Option Written :=
  if cs = [] then some .empty
  else if cs = ['A'] then some .a
  else if cs.take 2 = ['#', '$'] then
    let (d, n, rest) := takeHex 0 0 (cs.drop 2)
    if rest = [] then some (.imm d n) else none
  else if cs.take 2 = ['(', '$'] then
    let (d, n, rest) := takeHex 0 0 (cs.drop 2)
    readIndirectEnd d n rest
  else if cs.take 1 = ['$'] then
    let (d, n, rest) := takeHex 0 0 (cs.drop 1)
    readDirectEnd d n rest
  else some (.label cs)

/-- R77: a number of one or two digits selects the zero-page mode and one of four digits the absolute mode where the
mnemonic has both; where it has one of them, that one, if the number fits it. -/
def selectDirect (m : Mnemonic) (zpMode absMode : Mode) (digits n : Nat) : Option Operand :=
  let short := (zpMode.assemble (BitVec.ofNat 8 n) 0)
  let long := (absMode.assemble (BitVec.ofNat 8 n) (BitVec.ofNat 8 (n / 256)))
  if zpMode ∈ legalModes m ∧ absMode ∈ legalModes m then
    if digits = 1 ∨ digits = 2 then some short else if digits = 4 then some long else none
  else if zpMode ∈ legalModes m ∧ 1 ≤ digits ∧ n < 256 then some short
  else if absMode ∈ legalModes m ∧ 1 ≤ digits ∧ n < 65536 then some long
  else none

/-- R77: the byte of a branch at an address, `target - (address of branch + 2)`, where it is -128 to 127. -/
def branchOperand (addr target : Word) : Option Operand :=
  let b := Word.lo (target - (addr + 2))
  if addr + 2 + sext16 b = target then some (.rel b) else none

/-- R77: the operand a mnemonic at an address takes from what is written. -/
def selectOperand (labels : List (List Char × Word)) (addr : Word) (m : Mnemonic) : Written → Option Operand
  | .empty => if Mode.impl ∈ legalModes m then some .impl else some .acc
  | .a => some .acc
  | .imm d n => if (d = 1 ∨ d = 2) ∧ n < 256 then some (.imm (BitVec.ofNat 8 n)) else none
  | .direct d n =>
    if Mode.rel ∈ legalModes m then
      if d = 4 then branchOperand addr (BitVec.ofNat 16 n) else none
    else selectDirect m .zp .abs d n
  | .directX d n => selectDirect m .zpX .absX d n
  | .directY d n => selectDirect m .zpY .absY d n
  | .ind d n => if d = 4 then some (.ind (BitVec.ofNat 16 n)) else none
  | .indX d n => if (d = 1 ∨ d = 2) ∧ n < 256 then some (.indX (BitVec.ofNat 8 n)) else none
  | .indY d n => if (d = 1 ∨ d = 2) ∧ n < 256 then some (.indY (BitVec.ofNat 8 n)) else none
  | .label name => (labels.lookup name).bind (branchOperand addr)

/-- R77: a statement split into its mnemonic's three letters and its operand, one space between them. -/
def splitStatement (cs : List Char) : Option (Mnemonic × List Char) :=
  (allMnemonics.find? (fun m => mnemonicText m == cs.take 3)).bind fun m =>
    if cs.drop 3 = [] then some (m, [])
    else if (cs.drop 3).take 1 = [' '] then some (m, cs.drop 4)
    else none

/-- R77: the instruction a statement at an address spells, with the labels a program gives addresses. -/
def assemble (labels : List (List Char × Word)) (addr : Word) (cs : List Char) : Option Instr :=
  (splitStatement cs).bind fun (m, text) =>
    (readOperandText text).bind fun w =>
      (selectOperand labels addr m w).bind fun o => Instr.ofForm m o

/-- R77: the bytes of statements laid one after another from an address. -/
def assembleAll (labels : List (List Char × Word)) (addr : Word) (stmts : List (List Char)) : Option (List Byte) :=
  match stmts with
  | [] => some []
  | cs :: rest =>
    (assemble labels addr cs).bind fun i =>
      (assembleAll labels (addr + BitVec.ofNat 16 i.length) rest).map (encode i ++ ·)

/-- R77: running text cut at its `;` characters. -/
def statements (cs : List Char) : List (List Char) :=
  match cs with
  | [] => [[]]
  | c :: rest =>
    match c == ';', statements rest with
    | true, ss => [] :: ss
    | false, [] => [[c]]
    | false, s :: ss => (c :: s) :: ss

/-- R77: the bytes of running text laid from an address, spaces after a `;` left out. -/
def assembleText (labels : List (List Char × Word)) (addr : Word) (cs : List Char) : Option (List Byte) :=
  assembleAll labels addr ((statements cs).map (List.dropWhile (· == ' ')))

end Sys2Proof.Machine
end

