-- ==== Sys2Proof/Safety.lean ====
section
/-! DEFINITION. The terms claims are written in: a live core, what every entry point keeps, a safe run, the operand an
instruction sees, and what is the same before and after. -/

namespace Sys2Proof.Machine

/-! ## Live cores, the invariant, safe runs -/

/-- The core may be stepped: reset has happened (R32) and no fault is latched (R271). -/
abbrev State.Live (s : State) : Prop := s.created = true ∧ s.fault = none

/-- What every entry point keeps: memory in canonical form, and bit 5 of P stored as 1 (R24, R34). -/
abbrev State.Inv (s : State) : Prop := Memory.wf s.ram ∧ s.p.getLsbD 5 = true

/-- The next step completes an instruction. -/
def State.SafeStep (s : State) : Prop := ∃ t, step s = .next t

/-- `n` steps complete with no fault and no refusal. -/
def State.SafeFor (n : Nat) (s : State) : Prop := ∃ t, Host.Core.run Sys2Proof.core n s = .next t

/-- Every read of the bus is answered from RAM: the flat 64 KB RAM of D18. -/
abbrev State.FlatBus (s : State) : Prop := s.answers = []

/-! ## The operand an instruction sees (R105, R123) -/

/-- The effective address of an instruction that runs in a state. -/
def effAddr (i : Instr) (s : State) : Word := (resolve i.operand s).target

/-- The operand value M of an instruction that runs in a state: the byte its class read gives. -/
def operandOf (i : Instr) (s : State) : Byte := (loadOperand i.operand (resolve i.operand s)).1

/-- The state after the resolver and the class read. -/
def afterOperand (i : Instr) (s : State) : State := (loadOperand i.operand (resolve i.operand s)).2

/-- The cost of an instruction that is not a branch: its base count and its page-cross penalty (R125, R126). -/
def costOf (i : Instr) (s : State) : Nat := i.baseCycles + pageCrossPenalty i (resolve i.operand s).crossed

/-- R74: the opcode bytes and modes of a mnemonic, in the table's order. -/
def rowsOf (m : Mnemonic) : List (Byte × Mode) :=
  (opcodeTable.filter (fun r => r.mnemonic == m)).map (fun r => (r.opcode, r.mode))

/-- What the bus answers to the read `k` reads from now (0 for the next), made at `a`, while RAM at `a` is as it is. -/
def State.nthAnswer (s : State) (k : Nat) (a : Word) : Byte :=
  match s.answers[k]? with
  | some (some v) => v
  | _ => Memory.read s.ram a.toNat

/-- `n` bytes fetched at PC, one after another (R100, R131), with the state after them. -/
def fetchBytes (n : Nat) (s : State) : List Byte × State :=
  match n with
  | 0 => ([], s)
  | n + 1 => ((fetchByte s).1 :: (fetchBytes n (fetchByte s).2).1, (fetchBytes n (fetchByte s).2).2)

/-! ## The accesses of an instruction (R104, R131) -/

/-- Whether a transaction is a write, and its address. -/
def Access.shape : Access → Bool × Word
  | .read a _ => (false, a)
  | .write a _ => (true, a)

/-- The transactions of a log that are not in an earlier one, oldest first. -/
def newAccesses (before after : List Access) : List Access := (after.take (after.length - before.length)).reverse

/-- The pointer reads of a mode, in order (R112, R113, R114). -/
def pointerReads (o : Operand) (s : State) : List Word :=
  match o with
  | .ind w => [w, word16 w.hi (w.lo + 1)]
  | .indX b => [word16 0 (b + s.x), word16 0 (b + s.x + 1)]
  | .indY b => [word16 0 b, word16 0 (b + 1)]
  | _ => []

/-- The accesses of an operand class at the effective address (R104, R123).  An Immediate operand is read as the
instruction's operand byte. -/
def classAccesses (i : Instr) (ea : Word) : List (Bool × Word) :=
  match i.operandClass with
  | .read => if i.mode = .imm then [] else [(false, ea)]
  | .write => [(true, ea)]
  | .rmw => [(false, ea), (true, ea)]
  | _ => []

/-- The stack and vector accesses of an instruction's own rule (R241 to R244, R252 to R255). -/
def ownAccesses (m : Mnemonic) (sp : Byte) : List (Bool × Word) :=
  match m with
  | .pha | .php => [(true, word16 1 sp)]
  | .pla | .plp => [(false, word16 1 (sp + 1))]
  | .jsr => [(true, word16 1 sp), (true, word16 1 (sp - 1))]
  | .rts => [(false, word16 1 (sp + 1)), (false, word16 1 (sp + 2))]
  | .brk => [(true, word16 1 sp), (true, word16 1 (sp - 1)), (true, word16 1 (sp - 2)), (false, 0xFFFE), (false, 0xFFFF)]
  | .rti => [(false, word16 1 (sp + 1)), (false, word16 1 (sp + 2)), (false, word16 1 (sp + 3))]
  | _ => []

/-! ## The same before and after -/

/-- The byte of RAM at an address. -/
def peek (s : State) (a : Word) : Byte := Memory.read s.ram a.toNat

/-- Every byte of memory but those at the listed addresses reads as before. -/
def SameMemExcept (l : List Word) (s t : State) : Prop := ∀ a, a ∉ l → peek t a = peek s a

/-- Every flag but the listed ones is as before. -/
def SameFlagsExcept (l : List Flag) (s t : State) : Prop := ∀ f, f ∉ l → t.flag f = s.flag f

/-- The numbered registers but P, whose flags have their own frame. -/
inductive Reg where
  | A | X | Y | SP | PC
  deriving DecidableEq, Repr

/-- The value of a register. -/
def State.reg (s : State) : Reg → Nat
  | .A => s.a.toNat
  | .X => s.x.toNat
  | .Y => s.y.toNat
  | .SP => s.sp.toNat
  | .PC => s.pc.toNat

/-- Every register but the listed ones is as before. -/
def SameRegsExcept (l : List Reg) (s t : State) : Prop := ∀ r, r ∉ l → t.reg r = s.reg r

/-- Reset has happened or not as before, and the fault latch is as before. -/
def SameLatch (s t : State) : Prop := t.created = s.created ∧ t.fault = s.fault

/-- The frame of an instruction: nothing but the listed registers, flags and bytes of memory has changed. -/
def ChangesOnly (regs : List Reg) (flags : List Flag) (bytes : List Word) (s t : State) : Prop :=
  SameRegsExcept regs s t ∧ SameFlagsExcept flags s t ∧ SameMemExcept bytes s t ∧ SameLatch s t

/-- R117: Z and N are those of a value. -/
def FlagsZN (t : State) (v : Byte) : Prop := t.flag .Z = (v == 0) ∧ t.flag .N = v.getLsbD 7

end Sys2Proof.Machine
end

