-- ==== Sys2Proof/Certificates/Slice0/Obligations.lean ====
section
/-! DEFINITION. The statements for the provers.  Each is about the machine of Machine/, in the terms of Safety.lean;
OBLIGATIONS.json gives each its rule of spec/.

Every opcode byte and base cycle count in a statement is a row of R74, which the spec takes from general knowledge but
for the three rows its source gives.  A decision D<n> named below is the spec's own choice (92_eei_decisions.md). -/

open Sys2Proof Sys2Proof.Machine

/-! ## Encoding and decoding -/

/-- R70, R76: decoding an instruction's bytes gives it back, with every operand at every value, whatever follows. -/
def Obligations.DecodeOfEncodeIsTheInstruction : Prop :=
  ∀ (i : Instr) (rest : List Byte),
    decode (encode i ++ rest) = .ok (i, rest) ∧ (encode i).length = i.length ∧ 1 ≤ i.length ∧ i.length ≤ 3

/-- R70, R74: bytes that decode are the encoding of what they decode to, so no two encodings share an instruction and
no bit is ignored. -/
def Obligations.EncodeOfDecodeIsTheBytes : Prop :=
  ∀ (bs rest : List Byte) (i : Instr), decode bs = .ok (i, rest) → bs = encode i ++ rest

/-- Words written out from R74 and R72, little-endian operands, decode to the instruction they stand for, and one that
starts with an unassigned byte (R75) to none.  How decodeTableWord numbers an instruction's bits is log 19. -/
def Obligations.SampleWordsDecode : Prop :=
  decode [0xA9, 0x05] = .ok (.ldaImm 0x05, []) ∧
  decode [0x85, 0x10] = .ok (.staZp 0x10, []) ∧
  decode [0x65, 0x10] = .ok (.adcZp 0x10, []) ∧
  decode [0xBD, 0xFF, 0x12] = .ok (.ldaAbsX 0x12FF, []) ∧
  decode [0x6C, 0xFF, 0x10] = .ok (.jmpInd 0x10FF, []) ∧
  decode [0x0A] = .ok (.aslAcc, []) ∧
  decode [0xD0, 0xF8] = .ok (.bne 0xF8, []) ∧
  decode [0x40] = .ok (.rti, []) ∧
  decodeTableWord 24 0x0010FF = none ∧
  decodeTableWord 24 0x001020 = some (.jsr 0x0010)

/-- R78: the table has 151 rows, no opcode byte twice, registering them one at a time succeeds, a further row
for an opcode byte that has one is rejected whatever else it holds, and every byte has the row it is listed in or none. -/
def Obligations.OpcodeTableIsInjective : Prop :=
  opcodeTable.length = 151 ∧ (opcodeTable.map Row.opcode).Nodup ∧ buildTable opcodeTable = some opcodeTable ∧
  (∀ r : Row, r.opcode ∈ opcodeTable.map Row.opcode → buildTable (opcodeTable ++ [r]) = none) ∧
  ∀ op r, lookup op = some r ↔ r ∈ opcodeTable ∧ r.opcode = op

/-- R75: the 105 unassigned bytes. -/
def Obligations.UnassignedBytesAreThe105Listed : Prop :=
  unassignedBytes =
    [0x02, 0x03, 0x04, 0x07, 0x0B, 0x0C, 0x0F, 0x12, 0x13, 0x14, 0x17, 0x1A, 0x1B, 0x1C, 0x1F,
     0x22, 0x23, 0x27, 0x2B, 0x2F, 0x32, 0x33, 0x34, 0x37, 0x3A, 0x3B, 0x3C, 0x3F,
     0x42, 0x43, 0x44, 0x47, 0x4B, 0x4F, 0x52, 0x53, 0x54, 0x57, 0x5A, 0x5B, 0x5C, 0x5F] ++
    [0x62, 0x63, 0x64, 0x67, 0x6B, 0x6F, 0x72, 0x73, 0x74, 0x77, 0x7A, 0x7B, 0x7C, 0x7F,
     0x80, 0x82, 0x83, 0x87, 0x89, 0x8B, 0x8F, 0x92, 0x93, 0x97, 0x9B, 0x9C, 0x9E, 0x9F,
     0xA3, 0xA7, 0xAB, 0xAF, 0xB2, 0xB3, 0xB7, 0xBB, 0xBF] ++
    [0xC2, 0xC3, 0xC7, 0xCB, 0xCF, 0xD2, 0xD3, 0xD4, 0xD7, 0xDA, 0xDB, 0xDC, 0xDF,
     0xE2, 0xE3, 0xE7, 0xEB, 0xEF, 0xF2, 0xF3, 0xF4, 0xF7, 0xFA, 0xFB, 0xFC, 0xFF] ∧
  ∀ op : Byte, lookup op = none ↔ op ∈ unassignedBytes

/-- R77: the instruction a spelling at an address stands for is the instruction it spells, for every instruction,
every operand and every address. -/
def Obligations.AssemblingASpellingGivesTheInstruction : Prop :=
  ∀ (i : Instr) (addr : Word) (labels : List (List Char × Word)), assemble labels addr (instrText addr i) = some i

/-! ## The step -/

/-- R124: when the bytes the bus answers at PC decode to an instruction, a step of a live core is that instruction's
meaning in the state after those bytes are fetched: PC past them, their reads made, nothing else changed. -/
def Obligations.StepRunsTheDecodedInstruction : Prop :=
  ∀ (i : Instr) (s : State), s.Live → decode (fetchBytes i.length s).1 = .ok (i, []) →
    step s = exec i (fetchBytes i.length s).2 ∧
    (fetchBytes i.length s).2 =
      { s with
        pc := s.pc + BitVec.ofNat 16 i.length
        answers := s.answers.drop i.length
        log := ((List.range i.length).map (fun k =>
          Access.read (s.pc + BitVec.ofNat 16 k) (s.nthAnswer k (s.pc + BitVec.ofNat 16 k)))).reverse ++ s.log } ∧
    (fetchBytes i.length s).1 =
      (List.range i.length).map (fun k => s.nthAnswer k (s.pc + BitVec.ofNat 16 k))

/-- R128 (decision D11), R129, R124: a step that answers a next state returned its cost n, between 2 and 7, and added
it to the counter; the core stays live. A step that stops adds no cycles. -/
def Obligations.StepCostsTwoToSevenCycles : Prop :=
  (∀ s t : State, step s = .next t →
    ∃ n, stepCall s = .ok t n ∧ 2 ≤ n ∧ n ≤ 7 ∧ t.cycles = s.cycles + n ∧ s.Live ∧ t.Live) ∧
  (∀ (s t : State) (f : Fault), stepCall s = .halted t f → t.cycles = s.cycles)

/-- R131: the bus accesses of one step, in order: the opcode, the operand bytes, the pointer bytes, the class
accesses at the effective address, then the instruction's own stack and vector accesses. That these are all is the
spec's decision D3. -/
def Obligations.StepMakesExactlyTheListedAccesses : Prop :=
  ∀ (i : Instr) (s : State), s.Live → decode (fetchBytes i.length s).1 = .ok (i, []) →
    ∃ t, step s = .next t ∧
      (newAccesses s.log t.log).map Access.shape =
        (List.range i.length).map (fun k => (false, s.pc + BitVec.ofNat 16 k)) ++
        (pointerReads i.operand s).map (fun a => (false, a)) ++
        classAccesses i (effAddr i (fetchBytes i.length s).2) ++
        ownAccesses i.mnemonic s.sp ∧
      s.log <:+ t.log

/-- R270 (decision D11): a live core that fetches an unassigned byte halts: the latch holds the byte and its address,
PC is one past it, only that byte has been read, and nothing else has changed; the step returns the fault. It is the
only fault of a live step, the invariant-violation fault of R272 is none. -/
def Obligations.UnassignedByteHaltsTheCore : Prop :=
  (∀ s : State, s.Live → s.busAnswer s.pc ∈ unassignedBytes →
    step s = .fault (.unknownOpcode ⟨s.busAnswer s.pc, s.pc⟩) ∧
    ∃ t, stepCall s = .halted t (.unknownOpcode ⟨s.busAnswer s.pc, s.pc⟩) ∧
      t = { s with
        pc := s.pc + 1
        fault := some ⟨s.busAnswer s.pc, s.pc⟩
        answers := s.answers.drop 1
        log := Access.read s.pc (s.busAnswer s.pc) :: s.log }) ∧
  (∀ (s : State) (f : Fault), s.Live → step s = .fault f →
    f = .unknownOpcode ⟨s.busAnswer s.pc, s.pc⟩ ∧ s.busAnswer s.pc ∈ unassignedBytes) ∧
  (∀ (s : State) (op : Byte), step s ≠ .fault (.invariantViolation op))

/-- R271, R287 (decision D11): while a fault is latched, `step()` and `service_interrupt` return it and change
nothing; reset clears it. -/
def Obligations.HaltedCoreStaysHaltedUntilReset : Prop :=
  ∀ (s : State) (r : UnknownOpcode) (k : InterruptKind), s.created = true → s.fault = some r →
    stepCall s = .halted s (.unknownOpcode r) ∧ step s = .fault (.unknownOpcode r) ∧
    serviceInterrupt k s = .halted s (.unknownOpcode r) ∧ (resetCall s).fault = none

/-- R32 (decision D17): before the first reset every entry point but reset, and every accessor, is refused. -/
def Obligations.NothingRunsBeforeReset : Prop :=
  ∀ (s : State) (k : InterruptKind) (f : Flag), s.created = false →
    stepCall s = .refused .beforeReset ∧ step s = .refused .beforeReset ∧
    serviceInterrupt k s = .refused .beforeReset ∧
    readPC s = .error .beforeReset ∧ readSP s = .error .beforeReset ∧ readA s = .error .beforeReset ∧
    readX s = .error .beforeReset ∧ readY s = .error .beforeReset ∧ readStatus s = .error .beforeReset ∧
    readFlag f s = .error .beforeReset ∧ formatState s = .error .beforeReset ∧ (resetCall s).created = true

/-! ## Reset, interrupts, the text form -/

/-- R300 to R304: reset loads PC from the word at 0xFFFC, two reads low byte first, and sets every register, the
counter and the latch; it writes no memory.  That the counter is 0 and the latch clear rests also on the decisions D14
and D11. -/
def Obligations.ResetEstablishesTheResetState : Prop :=
  ∀ s : State, ∃ t, resetCall s = t ∧
    t.pc = word16 (s.nthAnswer 1 0xFFFD) (s.nthAnswer 0 0xFFFC) ∧
    t.a = 0 ∧ t.x = 0 ∧ t.y = 0 ∧ t.sp = 0xFD ∧ t.status = 0x24 ∧
    (t.flag .I = true ∧ t.flag .U = true ∧ t.flag .C = false ∧ t.flag .Z = false ∧ t.flag .D = false ∧
      t.flag .B = false ∧ t.flag .V = false ∧ t.flag .N = false) ∧
    t.cycles = 0 ∧ t.fault = none ∧ t.created = true ∧ t.ram = s.ram ∧
    t.log = [.read 0xFFFD (s.nthAnswer 1 0xFFFD), .read 0xFFFC (s.nthAnswer 0 0xFFFC)] ++ s.log

/-- R276 (decision D7): an IRQ request while I = 1 changes nothing; an NMI request is taken whatever I holds. -/
def Obligations.IrqIsMaskedByIAndNmiIsNot : Prop :=
  ∀ s : State, s.Live →
    (s.flag .I = true → serviceInterrupt .irq s = .masked s) ∧
    (s.flag .I = false → ∃ t, serviceInterrupt .irq s = .ok t 7) ∧
    (∃ t, serviceInterrupt .nmi s = .ok t 7)

/-- R277 (decision D7): an interrupt that is taken pushes PC, high byte first, then P with Break 0 and Unused 1, sets
I, loads PC from its vector, low byte first, and costs 7 cycles; nothing else changes. -/
def Obligations.InterruptEntryPushesAndVectors : Prop :=
  ∀ (k : InterruptKind) (s : State), s.Live → (k = .irq → s.flag .I = false) →
    let v : Word := match k with
      | .nmi => 0xFFFA
      | .irq => 0xFFFE
    ∃ t, serviceInterrupt k s = .ok t 7 ∧
      peek t (word16 1 s.sp) = s.pc.hi ∧ peek t (word16 1 (s.sp - 1)) = s.pc.lo ∧
      peek t (word16 1 (s.sp - 2)) = (s.status &&& ~~~0x10#8) ||| 0x20 ∧
      t.sp = s.sp - 3 ∧ t.flag .I = true ∧ t.pc = word16 (s.nthAnswer 1 (v + 1)) (s.nthAnswer 0 v) ∧
      t.cycles = s.cycles + 7 ∧
      (newAccesses s.log t.log).map Access.shape =
        [(true, word16 1 s.sp), (true, word16 1 (s.sp - 1)), (true, word16 1 (s.sp - 2)), (false, v), (false, v + 1)] ∧
      ChangesOnly [.SP, .PC] [.I] [word16 1 s.sp, word16 1 (s.sp - 1), word16 1 (s.sp - 2)] s t

/-- R33: the layout of the text form and the two digits of every byte, with the text after reset and of V-EX9.  The
upper-case digits are the spec's own reading. -/
def Obligations.TextFormIsBitExact : Prop :=
  formatState State.reset = .ok "A:00 X:00 Y:00 P:24 SP:FD CYC:0" ∧
  formatState { State.reset with a := 0x0A, x := 0xFF, y := 0x00, p := 0xA5, sp := 0x01, cycles := 12345 } =
    .ok "A:0A X:FF Y:00 P:A5 SP:01 CYC:12345" ∧
  (∀ s : State, s.created = true → formatState s = .ok (String.ofList (
    "A:".toList ++ hex2 s.a ++ " X:".toList ++ hex2 s.x ++ " Y:".toList ++ hex2 s.y ++ " P:".toList ++ hex2 s.status ++
    " SP:".toList ++ hex2 s.sp ++ " CYC:".toList ++ Nat.toDigits 10 s.cycles))) ∧
  ∀ b : Byte, ∃ h l : Char, hex2 b = [h, l] ∧
    ['0', '1', '2', '3', '4', '5', '6', '7', '8', '9', 'A', 'B', 'C', 'D', 'E', 'F'][b.toNat / 16]? = some h ∧
    ['0', '1', '2', '3', '4', '5', '6', '7', '8', '9', 'A', 'B', 'C', 'D', 'E', 'F'][b.toNat % 16]? = some l

/-- R26, R23, R24 (decision D13): after reset each accessor gives its register, the Unused flag 1, and each flag the bit
of Status at its position of R23. -/
def Obligations.AccessorsReadTheRegisters : Prop :=
  ∀ s : State, s.created = true →
    readPC s = .ok s.pc ∧ readSP s = .ok s.sp ∧ readA s = .ok s.a ∧ readX s = .ok s.x ∧ readY s = .ok s.y ∧
    readStatus s = .ok (s.p ||| 0x20) ∧ readFlag .U s = .ok true ∧
    ∀ f n, (f, n) ∈ [(Flag.C, 0), (.Z, 1), (.I, 2), (.D, 3), (.B, 4), (.U, 5), (.V, 6), (.N, 7)] →
      readFlag f s = .ok ((s.p ||| 0x20).getLsbD n)

/-! ## The invariant -/

/-- The reset state meets the invariant and is live.  Its memory and its PC are the model's choices (logs 1 and 4). -/
def Obligations.ResetStateMeetsTheInvariant : Prop := State.reset.Inv ∧ State.reset.Live

/-- Every step keeps memory in canonical form (the model's own, log 1) and bit 5 of P at 1 (R24, decision D13). -/
def Obligations.EveryStepKeepsTheInvariant : Prop :=
  ∀ s t : State, s.Inv → step s = .next t → t.Inv

/-- Every call of every entry point, in any sequence the caller makes, keeps the invariant, the faulting and the
masked ones among them; and reset establishes bit 5 of P in any state whose memory is canonical. -/
def Obligations.EveryCallSequenceKeepsTheInvariant : Prop :=
  (∀ (cs : List Call) (s t : State), s.Inv → runCalls cs s = .ok t → t.Inv) ∧
  (∀ s : State, Memory.wf s.ram → (resetCall s).Inv)

/-! ## The bus and the stack -/

/-- R51: a read is one transaction that may give any byte, and changes nothing of the core or RAM. -/
def Obligations.BusReadMayGiveAnyByte : Prop :=
  ∀ (s : State) (a : Word) (v : Byte) (rest : List (Option Byte)),
    (s.answers = some v :: rest →
      read8 a s = (v, { s with answers := rest, log := .read a v :: s.log })) ∧
    (s.answers = none :: rest →
      read8 a s = (peek s a, { s with answers := rest, log := .read a (peek s a) :: s.log })) ∧
    (s.answers = [] → read8 a s = (peek s a, { s with log := .read a (peek s a) :: s.log }))

/-- R52: a 16-bit read is two reads, the low byte first, the second address wrapping at 0xFFFF. -/
def Obligations.WordReadIsTwoReadsLowFirst : Prop :=
  ∀ (s : State) (a : Word),
    (read16 a s).1 = word16 (s.nthAnswer 1 (a + 1)) (s.nthAnswer 0 a) ∧
    (newAccesses s.log (read16 a s).2.log).map Access.shape = [(false, a), (false, a + 1)] ∧
    ((0xFFFF : Word) + 1 = 0x0000)

/-- R64, R66 (decision D19): a byte written is what a later read or fetch at that address is answered, when RAM
answers (the flat RAM of D18, log 2). -/
def Obligations.StoresAreSeenByLaterReadsAndFetches : Prop :=
  ∀ (s : State) (a b : Word) (v : Byte), s.FlatBus →
    (read8 b (write8 a v s)).1 = (if b = a then v else peek s b) ∧
    (fetchByte ((write8 a v s).setPC a)).1 = v

/-- R60, R61: a push writes at 0x0100 + SP and then decrements SP; a pop increments SP and then reads there; both wrap
within the page. -/
def Obligations.PushAndPopStayInTheStackPage : Prop :=
  ∀ (s : State) (v : Byte),
    (push8 v s).sp = s.sp - 1 ∧ peek (push8 v s) (0x0100 + zext16 s.sp) = v ∧
    (∀ a : Word, a ≠ 0x0100 + zext16 s.sp → peek (push8 v s) a = peek s a) ∧
    (pop8 s).2.sp = s.sp + 1 ∧ (pop8 s).1 = s.nthAnswer 0 (0x0100 + zext16 (s.sp + 1)) ∧
    (∀ a : Word, peek (pop8 s).2 a = peek s a) ∧
    (0x0100 ≤ 0x0100 + zext16 s.sp ∧ 0x0100 + zext16 s.sp ≤ (0x01FF : Word)) ∧
    ((0x00 : Byte) - 1 = 0xFF ∧ (0xFF : Byte) + 1 = 0x00)

/-- R62, R63: a word pushed is the word popped, and SP is as it was, for every SP, on the flat RAM of D18 (log 2). -/
def Obligations.PopWordUndoesPushWord : Prop :=
  ∀ (s : State) (v : Word), s.FlatBus →
    (pop16 (push16 v s)).1 = v ∧ (pop16 (push16 v s)).2.sp = s.sp ∧
    (newAccesses s.log (pop16 (push16 v s)).2.log).map Access.shape =
      [(true, word16 1 s.sp), (true, word16 1 (s.sp - 1)), (false, word16 1 (s.sp - 1)), (false, word16 1 s.sp)]

/-! ## Addressing and the ALU -/

/-- R106 to R115: the effective address of every mode, and that only the pointer modes read the bus. PC is the
address after the instruction, its operand bytes being read before (log 6). -/
def Obligations.ResolverComputesTheEffectiveAddress : Prop :=
  ∀ (b : Byte) (w : Word) (s : State),
    (resolve .acc s).ea = none ∧ (resolve .impl s).ea = none ∧
    (∀ o, o = .acc ∨ o = .impl → (resolve o s).base = none ∧ (resolve o s).crossed = false) ∧
    (∀ o, o.mode ∉ [Mode.ind, .indX, .indY] → (resolve o s).state = s) ∧
    (resolve (.imm b) s).ea = some (s.pc - 1) ∧
    (resolve (.zp b) s).ea = some (word16 0 b) ∧
    (resolve (.zpX b) s).ea = some (word16 0 (b + s.x)) ∧
    (resolve (.zpY b) s).ea = some (word16 0 (b + s.y)) ∧
    (resolve (.abs w) s).ea = some w ∧
    (resolve (.absX w) s).ea = some (w + word16 0 s.x) ∧
    (resolve (.absY w) s).ea = some (w + word16 0 s.y) ∧
    (resolve (.ind w) s).ea = some (word16 (s.nthAnswer 1 (word16 w.hi (w.lo + 1))) (s.nthAnswer 0 w)) ∧
    (resolve (.indX b) s).ea =
      some (word16 (s.nthAnswer 1 (word16 0 (b + s.x + 1))) (s.nthAnswer 0 (word16 0 (b + s.x)))) ∧
    (resolve (.indY b) s).ea =
      some (word16 (s.nthAnswer 1 (word16 0 (b + 1))) (s.nthAnswer 0 (word16 0 b)) + word16 0 s.y) ∧
    (resolve (.rel b) s).ea = some (BitVec.ofInt 16 (s.pc.toInt + b.toInt))

/-- R107, R123, R180 (decision D3): the operand value: the byte of an Immediate, A in Accumulator mode, otherwise
what the bus answers at the effective address after the pointer reads. -/
def Obligations.OperandValueIsOneReadAtTheEffectiveAddress : Prop :=
  ∀ (i : Instr) (s : State),
    (∀ b, i.operand = .imm b → operandOf i s = b) ∧
    (i.mode = .acc → operandOf i s = s.a) ∧
    (i.mode ≠ .imm → i.operandClass = .read ∨ i.operandClass = .rmw →
      operandOf i s = s.nthAnswer (pointerReads i.operand s).length (effAddr i s))

/-- R116: the page-cross flag compares the high bytes of the effective address and the base for AbsoluteX, AbsoluteY
and IndirectY, and is false for every other mode. -/
def Obligations.PageCrossComparesHighBytes : Prop :=
  ∀ (o : Operand) (s : State),
    (o.mode ∈ [Mode.absX, .absY, .indY] → ∃ ea base, (resolve o s).ea = some ea ∧ (resolve o s).base = some base ∧
      ((resolve o s).crossed = true ↔ ea.hi ≠ base.hi)) ∧
    (o.mode ∉ [Mode.absX, .absY, .indY] → (resolve o s).crossed = false) ∧
    (∀ w, o = .absX w ∨ o = .absY w → (resolve o s).base = some w) ∧
    (∀ b, o = .indY b →
      (resolve o s).base = some (word16 (s.nthAnswer 1 (word16 0 (b + 1))) (s.nthAnswer 0 (word16 0 b))))

/-- R126, R127 (decisions D9, D10): the page-cross penalty is 1 for a read-class AbsoluteX, AbsoluteY or IndirectY
form that crosses, else 0; a branch's extras are 0 not taken, 1 taken, 2 taken to another page. -/
def Obligations.ExtrasAreThoseOfPageCrossesAndBranches : Prop :=
  (∀ (i : Instr) (c : Bool), pageCrossPenalty i c =
    (if i.operandClass = .read ∧ (i.mode = .absX ∨ i.mode = .absY ∨ i.mode = .indY) ∧ c = true then 1 else 0)) ∧
  (∀ (taken : Bool) (pcNext target : Word), branchExtra taken pcNext target =
    (if taken = false then 0 else if target.hi ≠ pcNext.hi then 2 else 1))

/-- R311: the base cycle counts by mode and class. -/
def Obligations.BaseCyclesByModeAndClass : Prop :=
  ∀ i : Instr, i.baseCycles =
    match i.mode, i.operandClass with
    | .imm, .read => 2
    | .zp, .read => 3
    | .zp, .write => 3
    | .zp, .rmw => 5
    | .zpX, .read => 4
    | .zpX, .write => 4
    | .zpX, .rmw => 6
    | .zpY, .read => 4
    | .zpY, .write => 4
    | .abs, .read => 4
    | .abs, .write => 4
    | .abs, .rmw => 6
    | .abs, _ => if i.mnemonic = .jsr then 6 else 3
    | .absX, .read => 4
    | .absX, .write => 5
    | .absX, .rmw => 7
    | .absY, .read => 4
    | .absY, .write => 5
    | .ind, _ => 5
    | .indX, _ => 6
    | .indY, .read => 5
    | .indY, .write => 6
    | .rel, _ => 2
    | .acc, _ => 2
    | .impl, _ =>
      if i.mnemonic = .pha ∨ i.mnemonic = .php then 3
      else if i.mnemonic = .pla ∨ i.mnemonic = .plp then 4
      else if i.mnemonic = .rts ∨ i.mnemonic = .rti then 6
      else if i.mnemonic = .brk then 7
      else 2
    | _, _ => 0

/-- R117: SetZN writes Z and N from the value and no other flag. -/
def Obligations.SetZNWritesZAndNOnly : Prop :=
  ∀ (v : Byte) (s : State), ((s.setZN v).flag .Z = true ↔ v = 0) ∧ ((s.setZN v).flag .N = true ↔ 0x80 ≤ v) ∧
    ChangesOnly [] [.Z, .N] [] s (s.setZN v) ∧ (s.setZN v).log = s.log

/-- R118: the overflow of an addition is signed overflow: the exact signed sum does not fit in 8 bits. -/
def Obligations.AdditionOverflowIsSignedOverflow : Prop :=
  ∀ (a m : Byte) (cin : Bool),
    (aluAdd a m cin).1.toNat = (a.toNat + m.toNat + cin.toNat) % 256 ∧
    ((aluAdd a m cin).2.1 = true ↔ 255 < a.toNat + m.toNat + cin.toNat) ∧
    ((aluAdd a m cin).2.2 = true ↔ a.toInt + m.toInt + cin.toNat < -128 ∨ 127 < a.toInt + m.toInt + cin.toNat) ∧
    ((aluAdd a m cin).2.2 = true ↔ a.msb = m.msb ∧ (aluAdd a m cin).1.msb ≠ a.msb)

/-! ## The instructions: what each does, what it leaves, and that it completes -/

/-- R141 to R143: the byte at the effective address is loaded, with Z and N. -/
def Obligations.LoadsCopyTheOperandAndSetZN : Prop :=
  (rowsOf .lda = [(0xA1, .indX), (0xA5, .zp), (0xA9, .imm), (0xAD, .abs), (0xB1, .indY), (0xB5, .zpX), (0xB9, .absY),
    (0xBD, .absX)] ∧
   rowsOf .ldx = [(0xA2, .imm), (0xA6, .zp), (0xAE, .abs), (0xB6, .zpY), (0xBE, .absY)] ∧
   rowsOf .ldy = [(0xA0, .imm), (0xA4, .zp), (0xAC, .abs), (0xB4, .zpX), (0xBC, .absX)]) ∧
  ∀ (i : Instr) (s : State),
    (i.mnemonic = .lda → ∃ t, exec i s = .next t ∧ t.a = operandOf i s ∧ FlagsZN t (operandOf i s) ∧
      ChangesOnly [.A] [.Z, .N] [] s t ∧ t.cycles = s.cycles + costOf i s) ∧
    (i.mnemonic = .ldx → ∃ t, exec i s = .next t ∧ t.x = operandOf i s ∧ FlagsZN t (operandOf i s) ∧
      ChangesOnly [.X] [.Z, .N] [] s t ∧ t.cycles = s.cycles + costOf i s) ∧
    (i.mnemonic = .ldy → ∃ t, exec i s = .next t ∧ t.y = operandOf i s ∧ FlagsZN t (operandOf i s) ∧
      ChangesOnly [.Y] [.Z, .N] [] s t ∧ t.cycles = s.cycles + costOf i s)

/-- R144 to R146: the register is stored at the effective address, with no read there and never a penalty. -/
def Obligations.StoresWriteTheRegister : Prop :=
  (rowsOf .sta = [(0x81, .indX), (0x85, .zp), (0x8D, .abs), (0x91, .indY), (0x95, .zpX), (0x99, .absY), (0x9D, .absX)] ∧
   rowsOf .stx = [(0x86, .zp), (0x8E, .abs), (0x96, .zpY)] ∧
   rowsOf .sty = [(0x84, .zp), (0x8C, .abs), (0x94, .zpX)]) ∧
  ∀ (i : Instr) (s : State),
    (i.mnemonic = .sta → ∃ t, exec i s = .next t ∧ peek t (effAddr i s) = s.a ∧
      t.log = .write (effAddr i s) s.a :: (resolve i.operand s).state.log ∧
      ChangesOnly [] [] [effAddr i s] s t ∧ t.cycles = s.cycles + i.baseCycles) ∧
    (i.mnemonic = .stx → ∃ t, exec i s = .next t ∧ peek t (effAddr i s) = s.x ∧
      t.log = .write (effAddr i s) s.x :: (resolve i.operand s).state.log ∧
      ChangesOnly [] [] [effAddr i s] s t ∧ t.cycles = s.cycles + i.baseCycles) ∧
    (i.mnemonic = .sty → ∃ t, exec i s = .next t ∧ peek t (effAddr i s) = s.y ∧
      t.log = .write (effAddr i s) s.y :: (resolve i.operand s).state.log ∧
      ChangesOnly [] [] [effAddr i s] s t ∧ t.cycles = s.cycles + i.baseCycles)

/-- R147 to R152: the transfers; TXS alone leaves the flags. -/
def Obligations.TransfersCopyBetweenRegisters : Prop :=
  (rowsOf .tax = [(0xAA, .impl)] ∧ rowsOf .tay = [(0xA8, .impl)] ∧ rowsOf .txa = [(0x8A, .impl)] ∧
   rowsOf .tya = [(0x98, .impl)] ∧ rowsOf .tsx = [(0xBA, .impl)] ∧ rowsOf .txs = [(0x9A, .impl)]) ∧
  ∀ s : State,
    (∃ t, exec .tax s = .next t ∧ t.x = s.a ∧ FlagsZN t s.a ∧ ChangesOnly [.X] [.Z, .N] [] s t ∧
      t.cycles = s.cycles + 2 ∧ t.log = s.log) ∧
    (∃ t, exec .tay s = .next t ∧ t.y = s.a ∧ FlagsZN t s.a ∧ ChangesOnly [.Y] [.Z, .N] [] s t ∧
      t.cycles = s.cycles + 2 ∧ t.log = s.log) ∧
    (∃ t, exec .txa s = .next t ∧ t.a = s.x ∧ FlagsZN t s.x ∧ ChangesOnly [.A] [.Z, .N] [] s t ∧
      t.cycles = s.cycles + 2 ∧ t.log = s.log) ∧
    (∃ t, exec .tya s = .next t ∧ t.a = s.y ∧ FlagsZN t s.y ∧ ChangesOnly [.A] [.Z, .N] [] s t ∧
      t.cycles = s.cycles + 2 ∧ t.log = s.log) ∧
    (∃ t, exec .tsx s = .next t ∧ t.x = s.sp ∧ FlagsZN t s.sp ∧ ChangesOnly [.X] [.Z, .N] [] s t ∧
      t.cycles = s.cycles + 2 ∧ t.log = s.log) ∧
    (∃ t, exec .txs s = .next t ∧ t.sp = s.x ∧ ChangesOnly [.SP] [] [] s t ∧
      t.cycles = s.cycles + 2 ∧ t.log = s.log)

/-- R161: binary addition with carry into A, whatever D holds (R160, decision D4). -/
def Obligations.AdcAddsWithCarry : Prop :=
  rowsOf .adc = [(0x61, .indX), (0x65, .zp), (0x69, .imm), (0x6D, .abs), (0x71, .indY), (0x75, .zpX), (0x79, .absY),
    (0x7D, .absX)] ∧
  ∀ (i : Instr) (s : State), i.mnemonic = .adc →
    let m := operandOf i s
    let sum := s.a.toNat + m.toNat + (s.flag .C).toNat
    ∃ t, exec i s = .next t ∧ t.a = BitVec.ofNat 8 sum ∧ (t.flag .C = true ↔ 0xFF < sum) ∧
      (t.flag .V = true ↔ s.a.msb = m.msb ∧ t.a.msb ≠ s.a.msb) ∧ FlagsZN t t.a ∧
      ChangesOnly [.A] [.C, .Z, .V, .N] [] s t ∧ t.cycles = s.cycles + costOf i s

/-- R162: subtraction with borrow into A, the carry meaning no borrow, whatever D holds (R160, decision D4). -/
def Obligations.SbcSubtractsWithBorrow : Prop :=
  rowsOf .sbc = [(0xE1, .indX), (0xE5, .zp), (0xE9, .imm), (0xED, .abs), (0xF1, .indY), (0xF5, .zpX), (0xF9, .absY),
    (0xFD, .absX)] ∧
  ∀ (i : Instr) (s : State), i.mnemonic = .sbc →
    let m := operandOf i s
    let borrow := 1 - (s.flag .C).toNat
    ∃ t, exec i s = .next t ∧ t.a = s.a - m - BitVec.ofNat 8 borrow ∧
      (t.flag .C = true ↔ m.toNat + borrow ≤ s.a.toNat) ∧
      (t.flag .V = true ↔ s.a.msb = (m ^^^ 0xFF).msb ∧ t.a.msb ≠ s.a.msb) ∧ FlagsZN t t.a ∧
      ChangesOnly [.A] [.C, .Z, .V, .N] [] s t ∧ t.cycles = s.cycles + costOf i s

/-- R160 (decision D4): with DECIMAL_ENABLED = true arithmetic with D = 1 is refused, and with D = 0 it is the binary
one; with false it is binary whatever D holds, and this hardware takes false. -/
def Obligations.DecimalArithmeticIsRefusedOnlyWhenEnabled : Prop :=
  Config.hardware.decimalEnabled = false ∧
  (∀ (cfg : Config) (i : Instr) (f : Byte → State → State) (s : State),
    (cfg.decimalEnabled = true → s.flag .D = true → arithmetic cfg i f s = .refused .decimalArithmetic) ∧
    (cfg.decimalEnabled = false ∨ s.flag .D = false → arithmetic cfg i f s = readClass i f s)) ∧
  (∀ (i : Instr) (s : State),
    (i.mnemonic = .adc → exec i s = arithmetic Config.hardware i addToA s) ∧
    (i.mnemonic = .sbc → exec i s = arithmetic Config.hardware i subFromA s))

/-- R160 (decision D4), R31: D has no effect on ADC and SBC: two runs that differ in D alone end in states that
differ in D alone. -/
def Obligations.DecimalFlagDoesNotInterfere : Prop :=
  ∀ (i : Instr) (s : State) (b : Bool), i.mnemonic = .adc ∨ i.mnemonic = .sbc →
    ∃ t, exec i s = .next t ∧ exec i (s.setFlag .D b) = .next (t.setFlag .D b)

/-- R163 to R165: the operand is combined into A bit by bit, with Z and N; C and V are left. -/
def Obligations.LogicalInstructionsCombineIntoA : Prop :=
  (rowsOf .and = [(0x21, .indX), (0x25, .zp), (0x29, .imm), (0x2D, .abs), (0x31, .indY), (0x35, .zpX), (0x39, .absY),
    (0x3D, .absX)] ∧
   rowsOf .ora = [(0x01, .indX), (0x05, .zp), (0x09, .imm), (0x0D, .abs), (0x11, .indY), (0x15, .zpX), (0x19, .absY),
    (0x1D, .absX)] ∧
   rowsOf .eor = [(0x41, .indX), (0x45, .zp), (0x49, .imm), (0x4D, .abs), (0x51, .indY), (0x55, .zpX), (0x59, .absY),
    (0x5D, .absX)]) ∧
  ∀ (i : Instr) (s : State),
    (i.mnemonic = .and → ∃ t, exec i s = .next t ∧ t.a = s.a &&& operandOf i s ∧ FlagsZN t t.a ∧
      ChangesOnly [.A] [.Z, .N] [] s t ∧ t.cycles = s.cycles + costOf i s) ∧
    (i.mnemonic = .ora → ∃ t, exec i s = .next t ∧ t.a = s.a ||| operandOf i s ∧ FlagsZN t t.a ∧
      ChangesOnly [.A] [.Z, .N] [] s t ∧ t.cycles = s.cycles + costOf i s) ∧
    (i.mnemonic = .eor → ∃ t, exec i s = .next t ∧ t.a = s.a ^^^ operandOf i s ∧ FlagsZN t t.a ∧
      ChangesOnly [.A] [.Z, .N] [] s t ∧ t.cycles = s.cycles + costOf i s)

/-- R180 (decision D3) to R184: the shifts, on A with no bus access, or on the byte at the effective address, read
once and written once, with no penalty. -/
def Obligations.ShiftsActOnAOrMemory : Prop :=
  (rowsOf .asl = [(0x06, .zp), (0x0A, .acc), (0x0E, .abs), (0x16, .zpX), (0x1E, .absX)] ∧
   rowsOf .lsr = [(0x46, .zp), (0x4A, .acc), (0x4E, .abs), (0x56, .zpX), (0x5E, .absX)] ∧
   rowsOf .rol = [(0x26, .zp), (0x2A, .acc), (0x2E, .abs), (0x36, .zpX), (0x3E, .absX)] ∧
   rowsOf .ror = [(0x66, .zp), (0x6A, .acc), (0x6E, .abs), (0x76, .zpX), (0x7E, .absX)]) ∧
  ∀ (i : Instr) (s : State) (r : Byte) (c : Bool),
    let v := operandOf i s
    ((i.mnemonic = .asl ∧ r = v <<< 1 ∧ c = v.getLsbD 7) ∨
     (i.mnemonic = .lsr ∧ r = v >>> 1 ∧ c = v.getLsbD 0) ∨
     (i.mnemonic = .rol ∧ r = ((v <<< 1) ||| BitVec.ofNat 8 (s.flag .C).toNat) ∧ c = v.getLsbD 7) ∨
     (i.mnemonic = .ror ∧ r = ((v >>> 1) ||| (BitVec.ofNat 8 (s.flag .C).toNat <<< 7)) ∧ c = v.getLsbD 0)) →
    ∃ t, exec i s = .next t ∧ t.flag .C = c ∧ FlagsZN t r ∧ t.cycles = s.cycles + i.baseCycles ∧
      (i.mode = .acc → t.a = r ∧ v = s.a ∧ ChangesOnly [.A] [.C, .Z, .N] [] s t ∧ t.log = s.log) ∧
      (i.mode ≠ .acc → peek t (effAddr i s) = r ∧ ChangesOnly [] [.C, .Z, .N] [effAddr i s] s t ∧
        t.log = .write (effAddr i s) r :: .read (effAddr i s) v :: (resolve i.operand s).state.log)

/-- R191, R192: memory is incremented or decremented; the carry is left. -/
def Obligations.IncAndDecChangeMemory : Prop :=
  (rowsOf .inc = [(0xE6, .zp), (0xEE, .abs), (0xF6, .zpX), (0xFE, .absX)] ∧
   rowsOf .dec = [(0xC6, .zp), (0xCE, .abs), (0xD6, .zpX), (0xDE, .absX)]) ∧
  ∀ (i : Instr) (s : State),
    (i.mnemonic = .inc → ∃ t, exec i s = .next t ∧ peek t (effAddr i s) = operandOf i s + 1 ∧
      FlagsZN t (operandOf i s + 1) ∧ ChangesOnly [] [.Z, .N] [effAddr i s] s t ∧
      t.cycles = s.cycles + i.baseCycles) ∧
    (i.mnemonic = .dec → ∃ t, exec i s = .next t ∧ peek t (effAddr i s) = operandOf i s - 1 ∧
      FlagsZN t (operandOf i s - 1) ∧ ChangesOnly [] [.Z, .N] [effAddr i s] s t ∧
      t.cycles = s.cycles + i.baseCycles)

/-- R193 to R196: the index registers are incremented or decremented. -/
def Obligations.IndexRegistersStepByOne : Prop :=
  (rowsOf .inx = [(0xE8, .impl)] ∧ rowsOf .iny = [(0xC8, .impl)] ∧ rowsOf .dex = [(0xCA, .impl)] ∧
   rowsOf .dey = [(0x88, .impl)]) ∧
  ∀ s : State,
    (∃ t, exec .inx s = .next t ∧ t.x = s.x + 1 ∧ FlagsZN t (s.x + 1) ∧ ChangesOnly [.X] [.Z, .N] [] s t ∧
      t.cycles = s.cycles + 2) ∧
    (∃ t, exec .iny s = .next t ∧ t.y = s.y + 1 ∧ FlagsZN t (s.y + 1) ∧ ChangesOnly [.Y] [.Z, .N] [] s t ∧
      t.cycles = s.cycles + 2) ∧
    (∃ t, exec .dex s = .next t ∧ t.x = s.x - 1 ∧ FlagsZN t (s.x - 1) ∧ ChangesOnly [.X] [.Z, .N] [] s t ∧
      t.cycles = s.cycles + 2) ∧
    (∃ t, exec .dey s = .next t ∧ t.y = s.y - 1 ∧ FlagsZN t (s.y - 1) ∧ ChangesOnly [.Y] [.Z, .N] [] s t ∧
      t.cycles = s.cycles + 2)

/-- R201 to R203: the carry is the unsigned comparison, Z equality, N bit 7 of the difference; no register changes. -/
def Obligations.ComparesSetCarryZeroNegative : Prop :=
  (rowsOf .cmp = [(0xC1, .indX), (0xC5, .zp), (0xC9, .imm), (0xCD, .abs), (0xD1, .indY), (0xD5, .zpX), (0xD9, .absY),
    (0xDD, .absX)] ∧
   rowsOf .cpx = [(0xE0, .imm), (0xE4, .zp), (0xEC, .abs)] ∧
   rowsOf .cpy = [(0xC0, .imm), (0xC4, .zp), (0xCC, .abs)]) ∧
  ∀ (i : Instr) (s : State) (reg : Byte),
    ((i.mnemonic = .cmp ∧ reg = s.a) ∨ (i.mnemonic = .cpx ∧ reg = s.x) ∨ (i.mnemonic = .cpy ∧ reg = s.y)) →
    ∃ t, exec i s = .next t ∧ (t.flag .C = true ↔ operandOf i s ≤ reg) ∧ (t.flag .Z = true ↔ reg = operandOf i s) ∧
      t.flag .N = (reg - operandOf i s).getLsbD 7 ∧ ChangesOnly [] [.C, .Z, .N] [] s t ∧
      t.cycles = s.cycles + costOf i s

/-- R204: Z from A & M, N and V from bits 7 and 6 of M. -/
def Obligations.BitTestsTheOperand : Prop :=
  rowsOf .bit = [(0x24, .zp), (0x2C, .abs)] ∧
  ∀ (i : Instr) (s : State), i.mnemonic = .bit →
    ∃ t, exec i s = .next t ∧ (t.flag .Z = true ↔ s.a &&& operandOf i s = 0) ∧
      t.flag .N = (operandOf i s).getLsbD 7 ∧ t.flag .V = (operandOf i s).getLsbD 6 ∧
      ChangesOnly [] [.Z, .V, .N] [] s t ∧ t.cycles = s.cycles + i.baseCycles

/-- R210 to R218 (the second extra cycle is decision D10): each branch goes to PC plus its displacement exactly when
its flag is as named, costs 2, 1 more taken and 1 more again to another page, and changes only PC. -/
def Obligations.BranchesFollowTheirFlag : Prop :=
  (rowsOf .bcc = [(0x90, .rel)] ∧ rowsOf .bcs = [(0xB0, .rel)] ∧ rowsOf .beq = [(0xF0, .rel)] ∧
   rowsOf .bne = [(0xD0, .rel)] ∧ rowsOf .bmi = [(0x30, .rel)] ∧ rowsOf .bpl = [(0x10, .rel)] ∧
   rowsOf .bvc = [(0x50, .rel)] ∧ rowsOf .bvs = [(0x70, .rel)]) ∧
  ∀ (i : Instr) (b : Byte) (s : State) (taken : Bool),
    ((i = .bcc b ∧ taken = !s.flag .C) ∨ (i = .bcs b ∧ taken = s.flag .C) ∨ (i = .beq b ∧ taken = s.flag .Z) ∨
     (i = .bne b ∧ taken = !s.flag .Z) ∨ (i = .bmi b ∧ taken = s.flag .N) ∨ (i = .bpl b ∧ taken = !s.flag .N) ∨
     (i = .bvc b ∧ taken = !s.flag .V) ∨ (i = .bvs b ∧ taken = s.flag .V)) →
    ∃ t, exec i s = .next t ∧ t.pc = (if taken then s.pc + sext16 b else s.pc) ∧ t.log = s.log ∧
      t.cycles = s.cycles + 2 +
        (if taken then (if (s.pc + sext16 b).hi = s.pc.hi then 1 else 2) else 0) ∧
      ChangesOnly [.PC] [] [] s t

/-- R231 to R237: each flag instruction writes its one flag, and nothing else changes. -/
def Obligations.FlagInstructionsWriteOneFlag : Prop :=
  (rowsOf .clc = [(0x18, .impl)] ∧ rowsOf .cld = [(0xD8, .impl)] ∧ rowsOf .cli = [(0x58, .impl)] ∧
   rowsOf .clv = [(0xB8, .impl)] ∧ rowsOf .sec = [(0x38, .impl)] ∧ rowsOf .sed = [(0xF8, .impl)] ∧
   rowsOf .sei = [(0x78, .impl)]) ∧
  ∀ (i : Instr) (f : Flag) (v : Bool) (s : State),
    (i, f, v) ∈ [(Instr.clc, Flag.C, false), (.cld, .D, false), (.cli, .I, false), (.clv, .V, false),
      (.sec, .C, true), (.sed, .D, true), (.sei, .I, true)] →
    ∃ t, exec i s = .next t ∧ t.flag f = v ∧ ChangesOnly [] [f] [] s t ∧ t.log = s.log ∧ t.cycles = s.cycles + 2

/-- R241, R243 (decision D6): A, or P with Break and Unused set, is pushed; P itself is not changed. -/
def Obligations.PushInstructionsStoreOnTheStack : Prop :=
  rowsOf .pha = [(0x48, .impl)] ∧ rowsOf .php = [(0x08, .impl)] ∧
  ∀ s : State,
    (∃ t, exec .pha s = .next t ∧ peek t (word16 1 s.sp) = s.a ∧ t.sp = s.sp - 1 ∧
      ChangesOnly [.SP] [] [word16 1 s.sp] s t ∧ t.cycles = s.cycles + 3) ∧
    (∃ t, exec .php s = .next t ∧ peek t (word16 1 s.sp) = (s.status ||| 0x30) ∧ t.sp = s.sp - 1 ∧
      ChangesOnly [.SP] [] [word16 1 s.sp] s t ∧ t.cycles = s.cycles + 3)

/-- R242, R244: A with Z and N, or P with Break 0 and Unused 1, is pulled. -/
def Obligations.PullInstructionsLoadFromTheStack : Prop :=
  rowsOf .pla = [(0x68, .impl)] ∧ rowsOf .plp = [(0x28, .impl)] ∧
  ∀ s : State,
    let v := s.nthAnswer 0 (word16 1 (s.sp + 1))
    (∃ t, exec .pla s = .next t ∧ t.a = v ∧ FlagsZN t v ∧ t.sp = s.sp + 1 ∧
      ChangesOnly [.A, .SP] [.Z, .N] [] s t ∧ t.cycles = s.cycles + 4) ∧
    (∃ t, exec .plp s = .next t ∧ t.status = ((v &&& ~~~0x10#8) ||| 0x20) ∧ t.flag .B = false ∧ t.flag .U = true ∧
      (∀ f, f ≠ .B → f ≠ .U → t.flag f = v.getLsbD f.bit) ∧ t.sp = s.sp + 1 ∧
      ChangesOnly [.SP] [.C, .Z, .I, .D, .B, .V, .N] [] s t ∧ t.cycles = s.cycles + 4)

/-- R251: JMP goes to its operand word, or to the target read through the pointer with the page-wrap defect. -/
def Obligations.JumpsSetPC : Prop :=
  rowsOf .jmp = [(0x4C, .abs), (0x6C, .ind)] ∧
  ∀ (w : Word) (s : State),
    (∃ t, exec (.jmpAbs w) s = .next t ∧ t.pc = w ∧ t.log = s.log ∧ ChangesOnly [.PC] [] [] s t ∧
      t.cycles = s.cycles + 3) ∧
    (∃ t, exec (.jmpInd w) s = .next t ∧
      t.pc = word16 (s.nthAnswer 1 (word16 w.hi (w.lo + 1))) (s.nthAnswer 0 w) ∧ ChangesOnly [.PC] [] [] s t ∧
      t.cycles = s.cycles + 5)

/-- R252, R253: JSR pushes the address of its last byte, high byte first, and goes to its operand; RTS pops a word,
low byte first, and goes to the address after it. -/
def Obligations.SubroutineCallAndReturn : Prop :=
  rowsOf .jsr = [(0x20, .abs)] ∧ rowsOf .rts = [(0x60, .impl)] ∧
  ∀ (w : Word) (s : State),
    (∃ t, exec (.jsr w) s = .next t ∧ t.pc = w ∧ t.sp = s.sp - 2 ∧
      peek t (word16 1 s.sp) = (s.pc - 1).hi ∧ peek t (word16 1 (s.sp - 1)) = (s.pc - 1).lo ∧
      ChangesOnly [.SP, .PC] [] [word16 1 s.sp, word16 1 (s.sp - 1)] s t ∧ t.cycles = s.cycles + 6) ∧
    (∃ t, exec .rts s = .next t ∧
      t.pc = word16 (s.nthAnswer 1 (word16 1 (s.sp + 2))) (s.nthAnswer 0 (word16 1 (s.sp + 1))) + 1 ∧
      t.sp = s.sp + 2 ∧ ChangesOnly [.SP, .PC] [] [] s t ∧ t.cycles = s.cycles + 6)

/-- R254 (decisions D5, D6): BRK, whose opcode is at PC - 1 when it runs, pushes that address plus 2, high byte
first, then P with Break and Unused set, sets I, and goes to the vector at 0xFFFE, whatever I holds. -/
def Obligations.BrkEntersThroughTheIrqVector : Prop :=
  rowsOf .brk = [(0x00, .impl)] ∧
  ∀ s : State, ∃ t, exec .brk s = .next t ∧
    peek t (word16 1 s.sp) = ((s.pc - 1) + 2).hi ∧ peek t (word16 1 (s.sp - 1)) = ((s.pc - 1) + 2).lo ∧
    peek t (word16 1 (s.sp - 2)) = (s.status ||| 0x30) ∧ t.sp = s.sp - 3 ∧ t.flag .I = true ∧
    t.pc = word16 (s.nthAnswer 1 0xFFFF) (s.nthAnswer 0 0xFFFE) ∧
    ChangesOnly [.SP, .PC] [.I] [word16 1 s.sp, word16 1 (s.sp - 1), word16 1 (s.sp - 2)] s t ∧
    t.cycles = s.cycles + 7

/-- R255: RTI pops P, Break as popped and Unused 1, then PC, low byte first, with no increment. -/
def Obligations.RtiRestoresStatusAndPC : Prop :=
  rowsOf .rti = [(0x40, .impl)] ∧
  ∀ s : State,
    let v := s.nthAnswer 0 (word16 1 (s.sp + 1))
    ∃ t, exec .rti s = .next t ∧ t.status = (v ||| 0x20) ∧ (∀ f, f ≠ .U → t.flag f = v.getLsbD f.bit) ∧
      t.pc = word16 (s.nthAnswer 2 (word16 1 (s.sp + 3))) (s.nthAnswer 1 (word16 1 (s.sp + 2))) ∧
      t.sp = s.sp + 3 ∧ ChangesOnly [.SP, .PC] [.C, .Z, .I, .D, .B, .V, .N] [] s t ∧ t.cycles = s.cycles + 6

/-- R256: NOP changes nothing but the cycle counter. -/
def Obligations.NopOnlyCostsCycles : Prop :=
  rowsOf .nop = [(0xEA, .impl)] ∧
  ∀ s : State, exec .nop s = .next { s with cycles := s.cycles + 2 }

/-! ## Calls and returns -/

/-- R253: on the flat RAM of D18 (log 2), RTS after JSR returns to the address after the JSR with SP as it was, for
every SP. -/
def Obligations.RtsReturnsToAfterJsr : Prop :=
  ∀ (w : Word) (s : State), s.FlatBus →
    ∃ t u, exec (.jsr w) s = .next t ∧ exec .rts t = .next u ∧ u.pc = s.pc ∧ u.sp = s.sp

/-- R255: on the flat RAM of D18 (log 2), RTI after BRK (decisions D5, D6) returns to the address after the byte that
follows BRK, restores every flag but Break, which is 1, and SP. -/
def Obligations.RtiReturnsFromBrk : Prop :=
  ∀ s : State, s.FlatBus →
    ∃ t u, exec .brk s = .next t ∧ exec .rti t = .next u ∧ u.pc = s.pc + 1 ∧ u.sp = s.sp ∧ u.flag .B = true ∧
      SameFlagsExcept [.B] s u

/-- R278: on the flat RAM of D18 (log 2), RTI after an interrupt service (decision D7) returns to the instruction
that was next, restores every flag but Break, which is 0, and SP. -/
def Obligations.RtiReturnsFromInterrupt : Prop :=
  ∀ (k : InterruptKind) (s : State), s.FlatBus → s.Live → (k = .irq → s.flag .I = false) →
    ∃ t u, serviceInterrupt k s = .ok t 7 ∧ exec .rti t = .next u ∧ u.pc = s.pc ∧ u.sp = s.sp ∧
      u.flag .B = false ∧ SameFlagsExcept [.B] s u

/-! ## The whole machine -/

/-- R31: the only instructions that change each flag; interrupt service changes only I; nothing changes Unused. -/
def Obligations.OnlyTheListedInstructionsChangeEachFlag : Prop :=
  (∀ (i : Instr) (s t : State) (f : Flag), exec i s = .next t → t.flag f ≠ s.flag f → i.mnemonic ∈
    (match f with
     | .C => [.adc, .sbc, .asl, .lsr, .rol, .ror, .cmp, .cpx, .cpy, .clc, .sec, .plp, .rti]
     | .Z => [.lda, .ldx, .ldy, .tax, .tay, .txa, .tya, .tsx, .adc, .sbc, .and, .ora, .eor, .asl, .lsr, .rol, .ror,
        .inc, .dec, .inx, .iny, .dex, .dey, .cmp, .cpx, .cpy, .bit, .pla, .plp, .rti]
     | .I => [.cli, .sei, .brk, .plp, .rti]
     | .D => [.cld, .sed, .plp, .rti]
     | .B => [.plp, .rti]
     | .U => []
     | .V => [.adc, .sbc, .bit, .clv, .plp, .rti]
     | .N => [.lda, .ldx, .ldy, .tax, .tay, .txa, .tya, .tsx, .adc, .sbc, .and, .ora, .eor, .asl, .lsr, .rol, .ror,
        .inc, .dec, .inx, .iny, .dex, .dey, .cmp, .cpx, .cpy, .bit, .pla, .plp, .rti] : List Mnemonic)) ∧
  (∀ (k : InterruptKind) (s t : State) (n : Nat) (f : Flag),
    serviceInterrupt k s = .ok t n → t.flag f ≠ s.flag f → f = .I)

/-- The only instructions that change each register, and that no instruction touches the latch. -/
def Obligations.OnlyTheListedInstructionsChangeEachRegister : Prop :=
  ∀ (i : Instr) (s t : State), exec i s = .next t →
    (t.a ≠ s.a → i.mnemonic ∈ [Mnemonic.lda, .txa, .tya, .adc, .sbc, .and, .ora, .eor, .pla] ∨ i.mode = .acc) ∧
    (t.x ≠ s.x → i.mnemonic ∈ [Mnemonic.ldx, .tax, .tsx, .inx, .dex]) ∧
    (t.y ≠ s.y → i.mnemonic ∈ [Mnemonic.ldy, .tay, .iny, .dey]) ∧
    (t.sp ≠ s.sp → i.mnemonic ∈ [Mnemonic.txs, .pha, .pla, .php, .plp, .jsr, .rts, .brk, .rti]) ∧
    (t.pc ≠ s.pc → i.operandClass = .branch ∨ i.mnemonic ∈ [Mnemonic.jmp, .jsr, .rts, .brk, .rti]) ∧
    SameLatch s t

/-- A byte of memory changes only where a store or read-modify-write instruction's effective address is, or where a
push writes in the stack page. -/
def Obligations.MemoryChangesOnlyWhereInstructionsStore : Prop :=
  ∀ (i : Instr) (s t : State) (a : Word), exec i s = .next t → peek t a ≠ peek s a →
    ((i.operandClass = .write ∨ i.operandClass = .rmw) ∧ a = effAddr i s) ∨
    (i.mnemonic ∈ [Mnemonic.pha, .php, .jsr, .brk] ∧ a = word16 1 s.sp) ∨
    (i.mnemonic ∈ [Mnemonic.jsr, .brk] ∧ a = word16 1 (s.sp - 1)) ∨
    (i.mnemonic = .brk ∧ a = word16 1 (s.sp - 2))
end

