-- ==== Sys2Proof/Laws/Decode.lean ====
section
/-! SUPPORT. The opcode table, the decoder and the encoder agree; every instruction is well formed; R272's fault is
out of reach. -/

namespace Sys2Proof

/-! ## Bytes of a word -/

@[simp] theorem word16_lo (hi lo : Byte) : (word16 hi lo).lo = lo := by
  unfold Word.lo; ext k hk
  rw [BitVec.getElem_extractLsb', Nat.zero_add]
  show (hi ++ lo : BitVec (8 + 8)).getLsbD k = lo[k]
  simp only [BitVec.getLsbD_append, hk, if_true, BitVec.getLsbD_eq_getElem]

@[simp] theorem word16_hi (hi lo : Byte) : (word16 hi lo).hi = hi := by
  unfold Word.hi; ext k hk
  rw [BitVec.getElem_extractLsb']
  show (hi ++ lo : BitVec (8 + 8)).getLsbD (8 + k) = hi[k]
  rw [BitVec.getLsbD_append, if_neg (by omega), Nat.add_sub_cancel_left, BitVec.getLsbD_eq_getElem]

@[simp] theorem word16_hi_lo (w : Word) : word16 w.hi w.lo = w := by
  unfold Word.lo Word.hi word16
  ext k hk
  show (BitVec.extractLsb' 8 8 w ++ BitVec.extractLsb' 0 8 w : BitVec (8 + 8))[k] = w[k]
  rw [BitVec.getElem_append]
  split
  · rw [BitVec.getElem_extractLsb', Nat.zero_add, BitVec.getLsbD_eq_getElem]
  · rw [BitVec.getElem_extractLsb', Nat.add_sub_cancel' (by omega), BitVec.getLsbD_eq_getElem]

theorem word16_inj {hi lo hi' lo' : Byte} : word16 hi lo = word16 hi' lo' ↔ hi = hi' ∧ lo = lo' := by
  constructor
  · intro e
    exact ⟨by rw [← word16_hi hi lo, e, word16_hi], by rw [← word16_lo hi lo, e, word16_lo]⟩
  · rintro ⟨rfl, rfl⟩; rfl

theorem word16_toNat (hi lo : Byte) : (word16 hi lo).toNat = hi.toNat * 256 + lo.toNat := by
  show (hi ++ lo).toNat = _
  rw [BitVec.toNat_append, Nat.shiftLeft_eq, Nat.mul_comm, ← Nat.two_pow_add_eq_or_of_lt lo.isLt]

/-- R72: the zero-extended byte is a word of page 0. -/
theorem zext16_eq (b : Byte) : zext16 b = word16 0 b := by revert b; decide +kernel

/-! ## The table, seen from an instruction -/

/-- R74, R78: every legal mode of a mnemonic has a row, and that row's opcode finds it. -/
theorem rowFor_legal (m : Mnemonic) : (legalModes m).all (fun mode =>
    match rowFor m mode with
    | some r => r.mnemonic == m && r.mode == mode && lookup r.opcode == some r
    | none => false) = true := by
  cases m <;> decide +kernel

/-- R130, by construction: every instruction is well formed. -/
theorem wellFormed (i : Instr) : i.WellFormed := by
  cases i <;> exact List.elem_iff.1 rfl

theorem mode_legal (i : Instr) : i.mode ∈ legalModes i.mnemonic := wellFormed i

/-- The row of an instruction is the one its opcode finds. -/
theorem lookup_opcode (i : Instr) : lookup i.opcode = some ⟨i.opcode, i.mnemonic, i.mode, i.baseCycles⟩ := by
  have h := List.all_eq_true.1 (rowFor_legal i.mnemonic) i.mode (wellFormed i)
  unfold Instr.opcode Instr.baseCycles
  split at h
  · rename_i r hr
    simp only [Bool.and_eq_true, beq_iff_eq] at h
    obtain ⟨⟨hm, hmode⟩, hl⟩ := h
    rw [hr, ← hm, ← hmode]
    simpa using hl
  · simp at h

/-- R130: every row's instruction is found from its form. -/
@[simp] theorem ofForm_form (i : Instr) : Instr.ofForm i.mnemonic i.operand = some i := by
  cases i <;> rfl

/-- A form that is an instruction is that instruction's form. -/
theorem ofForm_some {m : Mnemonic} {o : Operand} {i : Instr} (h : Instr.ofForm m o = some i) :
    i.mnemonic = m ∧ i.operand = o := by
  cases o <;> simp only [Instr.ofForm] at h <;> split at h <;> first | (cases h; exact ⟨rfl, rfl⟩) | (cases h)

/-- The legal forms are exactly those the table has an instruction for. -/
theorem ofForm_isSome (m : Mnemonic) (o : Operand) :
    (Instr.ofForm m o).isSome = decide (Form.mk m o).WellFormed := by
  cases m <;> cases o <;> rfl

/-- R78: a registration is rejected exactly when the row's opcode byte has a row. -/
@[simp] theorem registerRow_eq_none (t : List Row) (r : Row) :
    registerRow t r = none ↔ r.opcode ∈ t.map Row.opcode := by
  simp [registerRow]

/-- R78: a table with one more row is that row registered in the table of the others. -/
theorem buildTable_concat (rows : List Row) (r : Row) :
    buildTable (rows ++ [r]) = (buildTable rows).bind fun t => registerRow t r := by
  simp [buildTable, List.foldlM_append]

/-- R74: what the table says of every opcode byte that has a row: the row is that of its mnemonic and mode, its mode is
legal, and its base count lies in 2 to 7, is 2 for a branch and at most 6 for a read. -/
theorem lookup_row {op : Byte} {r : Row} (h : lookup op = some r) :
    r.opcode = op ∧ rowFor r.mnemonic r.mode = some r ∧ r.mode ∈ legalModes r.mnemonic ∧
    2 ≤ r.baseCycles ∧ r.baseCycles ≤ 7 ∧ (r.mnemonic.operandClass r.mode = .branch → r.baseCycles = 2) ∧
    (r.mnemonic.operandClass r.mode = .read → r.baseCycles ≤ 6) := by
  have table : ∀ op : Byte, (lookup op).all (fun r => decide (r.opcode = op ∧ rowFor r.mnemonic r.mode = some r ∧
      r.mode ∈ legalModes r.mnemonic ∧ 2 ≤ r.baseCycles ∧ r.baseCycles ≤ 7 ∧
      (r.mnemonic.operandClass r.mode = .branch → r.baseCycles = 2) ∧
      (r.mnemonic.operandClass r.mode = .read → r.baseCycles ≤ 6))) = true := by decide +kernel
  have := table op
  rw [h] at this
  exact of_decide_eq_true this

/-- R104: an instruction that reads or writes at an effective address is in a mode that has one, and one that writes
there is not in Immediate mode. -/
theorem operandClass_mode {i : Instr} (h : i.operandClass = .read ∨ i.operandClass = .write ∨ i.operandClass = .rmw) :
    i.mode ≠ .acc ∧ i.mode ≠ .impl ∧ (i.operandClass = .read ∨ i.mode ≠ .imm) := by
  have table : ∀ op : Byte, (lookup op).all (fun r =>
      let c := r.mnemonic.operandClass r.mode
      decide (c = .read ∨ c = .write ∨ c = .rmw → r.mode ≠ .acc ∧ r.mode ≠ .impl ∧ (c = .read ∨ r.mode ≠ .imm))) = true := by
    decide +kernel
  have := table i.opcode
  rw [lookup_opcode] at this
  exact of_decide_eq_true this h

/-- R272: no row of the table is without an instruction, whatever its operand. -/
theorem ofForm_lookup {op : Byte} {r : Row} (h : lookup op = some r) (o : Operand) (ho : o.mode = r.mode) :
    ∃ i, Instr.ofForm r.mnemonic o = some i := by
  have hw : (Form.mk r.mnemonic o).WellFormed := by
    show o.mode ∈ _; rw [ho]; exact (lookup_row h).2.2.1
  have := ofForm_isSome r.mnemonic o
  rw [decide_eq_true hw] at this
  exact Option.isSome_iff_exists.1 this

/-! ## Operands and their bytes -/

@[simp] theorem assemble_mode (m : Mode) (o1 o2 : Byte) : (m.assemble o1 o2).mode = m := by cases m <;> rfl

/-- The operand bytes are as many as the mode has. -/
theorem operand_bytes_length (o : Operand) : o.bytes.length = o.mode.operandBytes := by cases o <;> rfl

/-- R70: an instruction's bytes are as many as its length. -/
theorem encode_length (i : Instr) : (encode i).length = i.length := by
  simp [encode, Instr.length, Instr.mode, operand_bytes_length, Nat.add_comm]

/-- The operand bytes of an operand are taken back as that operand. -/
theorem takeOperand_bytes (o : Operand) (rest : List Byte) :
    o.mode.takeOperand (o.bytes ++ rest) = some (o, rest) := by
  cases o <;> simp [Mode.takeOperand, Operand.mode, Mode.operandBytes, Operand.bytes, Mode.assemble]

/-- An operand taken off the front of a list is its bytes and the rest. -/
theorem takeOperand_some {m : Mode} {bs rest : List Byte} {o : Operand} (h : m.takeOperand bs = some (o, rest)) :
    o.mode = m ∧ bs = o.bytes ++ rest := by
  cases m <;> rcases bs with _ | ⟨b1, _ | ⟨b2, bs⟩⟩ <;>
    simp_all [Mode.takeOperand, Mode.operandBytes, Mode.assemble] <;>
    obtain ⟨rfl, rfl⟩ := h <;> simp [Operand.mode, Operand.bytes]

end Sys2Proof
end

