-- ==== Sys2Proof/Laws/State.lean ====
section
/-! SUPPORT. What every update of the state does to every field: one lemma per field and update, true by rfl. -/

namespace Sys2Proof.Machine

@[simp] theorem setA_a (s : State) (v : Byte) : (s.setA v).a = v := rfl
@[simp] theorem setA_x (s : State) (v : Byte) : (s.setA v).x = s.x := rfl
@[simp] theorem setA_y (s : State) (v : Byte) : (s.setA v).y = s.y := rfl
@[simp] theorem setA_sp (s : State) (v : Byte) : (s.setA v).sp = s.sp := rfl
@[simp] theorem setA_pc (s : State) (v : Byte) : (s.setA v).pc = s.pc := rfl
@[simp] theorem setA_p (s : State) (v : Byte) : (s.setA v).p = s.p := rfl
@[simp] theorem setA_cycles (s : State) (v : Byte) : (s.setA v).cycles = s.cycles := rfl
@[simp] theorem setA_fault (s : State) (v : Byte) : (s.setA v).fault = s.fault := rfl
@[simp] theorem setA_created (s : State) (v : Byte) : (s.setA v).created = s.created := rfl
@[simp] theorem setA_ram (s : State) (v : Byte) : (s.setA v).ram = s.ram := rfl
@[simp] theorem setA_answers (s : State) (v : Byte) : (s.setA v).answers = s.answers := rfl
@[simp] theorem setA_log (s : State) (v : Byte) : (s.setA v).log = s.log := rfl

@[simp] theorem setX_a (s : State) (v : Byte) : (s.setX v).a = s.a := rfl
@[simp] theorem setX_x (s : State) (v : Byte) : (s.setX v).x = v := rfl
@[simp] theorem setX_y (s : State) (v : Byte) : (s.setX v).y = s.y := rfl
@[simp] theorem setX_sp (s : State) (v : Byte) : (s.setX v).sp = s.sp := rfl
@[simp] theorem setX_pc (s : State) (v : Byte) : (s.setX v).pc = s.pc := rfl
@[simp] theorem setX_p (s : State) (v : Byte) : (s.setX v).p = s.p := rfl
@[simp] theorem setX_cycles (s : State) (v : Byte) : (s.setX v).cycles = s.cycles := rfl
@[simp] theorem setX_fault (s : State) (v : Byte) : (s.setX v).fault = s.fault := rfl
@[simp] theorem setX_created (s : State) (v : Byte) : (s.setX v).created = s.created := rfl
@[simp] theorem setX_ram (s : State) (v : Byte) : (s.setX v).ram = s.ram := rfl
@[simp] theorem setX_answers (s : State) (v : Byte) : (s.setX v).answers = s.answers := rfl
@[simp] theorem setX_log (s : State) (v : Byte) : (s.setX v).log = s.log := rfl

@[simp] theorem setY_a (s : State) (v : Byte) : (s.setY v).a = s.a := rfl
@[simp] theorem setY_x (s : State) (v : Byte) : (s.setY v).x = s.x := rfl
@[simp] theorem setY_y (s : State) (v : Byte) : (s.setY v).y = v := rfl
@[simp] theorem setY_sp (s : State) (v : Byte) : (s.setY v).sp = s.sp := rfl
@[simp] theorem setY_pc (s : State) (v : Byte) : (s.setY v).pc = s.pc := rfl
@[simp] theorem setY_p (s : State) (v : Byte) : (s.setY v).p = s.p := rfl
@[simp] theorem setY_cycles (s : State) (v : Byte) : (s.setY v).cycles = s.cycles := rfl
@[simp] theorem setY_fault (s : State) (v : Byte) : (s.setY v).fault = s.fault := rfl
@[simp] theorem setY_created (s : State) (v : Byte) : (s.setY v).created = s.created := rfl
@[simp] theorem setY_ram (s : State) (v : Byte) : (s.setY v).ram = s.ram := rfl
@[simp] theorem setY_answers (s : State) (v : Byte) : (s.setY v).answers = s.answers := rfl
@[simp] theorem setY_log (s : State) (v : Byte) : (s.setY v).log = s.log := rfl

@[simp] theorem setSP_a (s : State) (v : Byte) : (s.setSP v).a = s.a := rfl
@[simp] theorem setSP_x (s : State) (v : Byte) : (s.setSP v).x = s.x := rfl
@[simp] theorem setSP_y (s : State) (v : Byte) : (s.setSP v).y = s.y := rfl
@[simp] theorem setSP_sp (s : State) (v : Byte) : (s.setSP v).sp = v := rfl
@[simp] theorem setSP_pc (s : State) (v : Byte) : (s.setSP v).pc = s.pc := rfl
@[simp] theorem setSP_p (s : State) (v : Byte) : (s.setSP v).p = s.p := rfl
@[simp] theorem setSP_cycles (s : State) (v : Byte) : (s.setSP v).cycles = s.cycles := rfl
@[simp] theorem setSP_fault (s : State) (v : Byte) : (s.setSP v).fault = s.fault := rfl
@[simp] theorem setSP_created (s : State) (v : Byte) : (s.setSP v).created = s.created := rfl
@[simp] theorem setSP_ram (s : State) (v : Byte) : (s.setSP v).ram = s.ram := rfl
@[simp] theorem setSP_answers (s : State) (v : Byte) : (s.setSP v).answers = s.answers := rfl
@[simp] theorem setSP_log (s : State) (v : Byte) : (s.setSP v).log = s.log := rfl

@[simp] theorem setPC_a (s : State) (v : Word) : (s.setPC v).a = s.a := rfl
@[simp] theorem setPC_x (s : State) (v : Word) : (s.setPC v).x = s.x := rfl
@[simp] theorem setPC_y (s : State) (v : Word) : (s.setPC v).y = s.y := rfl
@[simp] theorem setPC_sp (s : State) (v : Word) : (s.setPC v).sp = s.sp := rfl
@[simp] theorem setPC_pc (s : State) (v : Word) : (s.setPC v).pc = v := rfl
@[simp] theorem setPC_p (s : State) (v : Word) : (s.setPC v).p = s.p := rfl
@[simp] theorem setPC_cycles (s : State) (v : Word) : (s.setPC v).cycles = s.cycles := rfl
@[simp] theorem setPC_fault (s : State) (v : Word) : (s.setPC v).fault = s.fault := rfl
@[simp] theorem setPC_created (s : State) (v : Word) : (s.setPC v).created = s.created := rfl
@[simp] theorem setPC_ram (s : State) (v : Word) : (s.setPC v).ram = s.ram := rfl
@[simp] theorem setPC_answers (s : State) (v : Word) : (s.setPC v).answers = s.answers := rfl
@[simp] theorem setPC_log (s : State) (v : Word) : (s.setPC v).log = s.log := rfl

@[simp] theorem setP_a (s : State) (v : Byte) : (s.setP v).a = s.a := rfl
@[simp] theorem setP_x (s : State) (v : Byte) : (s.setP v).x = s.x := rfl
@[simp] theorem setP_y (s : State) (v : Byte) : (s.setP v).y = s.y := rfl
@[simp] theorem setP_sp (s : State) (v : Byte) : (s.setP v).sp = s.sp := rfl
@[simp] theorem setP_pc (s : State) (v : Byte) : (s.setP v).pc = s.pc := rfl
@[simp] theorem setP_p (s : State) (v : Byte) : (s.setP v).p = withUnused v := rfl
@[simp] theorem setP_cycles (s : State) (v : Byte) : (s.setP v).cycles = s.cycles := rfl
@[simp] theorem setP_fault (s : State) (v : Byte) : (s.setP v).fault = s.fault := rfl
@[simp] theorem setP_created (s : State) (v : Byte) : (s.setP v).created = s.created := rfl
@[simp] theorem setP_ram (s : State) (v : Byte) : (s.setP v).ram = s.ram := rfl
@[simp] theorem setP_answers (s : State) (v : Byte) : (s.setP v).answers = s.answers := rfl
@[simp] theorem setP_log (s : State) (v : Byte) : (s.setP v).log = s.log := rfl

@[simp] theorem addCycles_a (s : State) (n : Nat) : (s.addCycles n).a = s.a := rfl
@[simp] theorem addCycles_x (s : State) (n : Nat) : (s.addCycles n).x = s.x := rfl
@[simp] theorem addCycles_y (s : State) (n : Nat) : (s.addCycles n).y = s.y := rfl
@[simp] theorem addCycles_sp (s : State) (n : Nat) : (s.addCycles n).sp = s.sp := rfl
@[simp] theorem addCycles_pc (s : State) (n : Nat) : (s.addCycles n).pc = s.pc := rfl
@[simp] theorem addCycles_p (s : State) (n : Nat) : (s.addCycles n).p = s.p := rfl
@[simp] theorem addCycles_cycles (s : State) (n : Nat) : (s.addCycles n).cycles = s.cycles + n := rfl
@[simp] theorem addCycles_fault (s : State) (n : Nat) : (s.addCycles n).fault = s.fault := rfl
@[simp] theorem addCycles_created (s : State) (n : Nat) : (s.addCycles n).created = s.created := rfl
@[simp] theorem addCycles_ram (s : State) (n : Nat) : (s.addCycles n).ram = s.ram := rfl
@[simp] theorem addCycles_answers (s : State) (n : Nat) : (s.addCycles n).answers = s.answers := rfl
@[simp] theorem addCycles_log (s : State) (n : Nat) : (s.addCycles n).log = s.log := rfl

@[simp] theorem setFlag_a (s : State) (f : Flag) (b : Bool) : (s.setFlag f b).a = s.a := rfl
@[simp] theorem setFlag_x (s : State) (f : Flag) (b : Bool) : (s.setFlag f b).x = s.x := rfl
@[simp] theorem setFlag_y (s : State) (f : Flag) (b : Bool) : (s.setFlag f b).y = s.y := rfl
@[simp] theorem setFlag_sp (s : State) (f : Flag) (b : Bool) : (s.setFlag f b).sp = s.sp := rfl
@[simp] theorem setFlag_pc (s : State) (f : Flag) (b : Bool) : (s.setFlag f b).pc = s.pc := rfl
@[simp] theorem setFlag_p (s : State) (f : Flag) (b : Bool) : (s.setFlag f b).p = withUnused (putFlag f b s.p) := rfl
@[simp] theorem setFlag_cycles (s : State) (f : Flag) (b : Bool) : (s.setFlag f b).cycles = s.cycles := rfl
@[simp] theorem setFlag_fault (s : State) (f : Flag) (b : Bool) : (s.setFlag f b).fault = s.fault := rfl
@[simp] theorem setFlag_created (s : State) (f : Flag) (b : Bool) : (s.setFlag f b).created = s.created := rfl
@[simp] theorem setFlag_ram (s : State) (f : Flag) (b : Bool) : (s.setFlag f b).ram = s.ram := rfl
@[simp] theorem setFlag_answers (s : State) (f : Flag) (b : Bool) : (s.setFlag f b).answers = s.answers := rfl
@[simp] theorem setFlag_log (s : State) (f : Flag) (b : Bool) : (s.setFlag f b).log = s.log := rfl

@[simp] theorem setZN_a (s : State) (v : Byte) : (s.setZN v).a = s.a := rfl
@[simp] theorem setZN_x (s : State) (v : Byte) : (s.setZN v).x = s.x := rfl
@[simp] theorem setZN_y (s : State) (v : Byte) : (s.setZN v).y = s.y := rfl
@[simp] theorem setZN_sp (s : State) (v : Byte) : (s.setZN v).sp = s.sp := rfl
@[simp] theorem setZN_pc (s : State) (v : Byte) : (s.setZN v).pc = s.pc := rfl
theorem setZN_p (s : State) (v : Byte) : (s.setZN v).p =
    withUnused (putFlag .N (v.getLsbD 7) (withUnused (putFlag .Z (v == 0) s.p))) := rfl
@[simp] theorem setZN_cycles (s : State) (v : Byte) : (s.setZN v).cycles = s.cycles := rfl
@[simp] theorem setZN_fault (s : State) (v : Byte) : (s.setZN v).fault = s.fault := rfl
@[simp] theorem setZN_created (s : State) (v : Byte) : (s.setZN v).created = s.created := rfl
@[simp] theorem setZN_ram (s : State) (v : Byte) : (s.setZN v).ram = s.ram := rfl
@[simp] theorem setZN_answers (s : State) (v : Byte) : (s.setZN v).answers = s.answers := rfl
@[simp] theorem setZN_log (s : State) (v : Byte) : (s.setZN v).log = s.log := rfl

@[simp] theorem latch_a (s : State) (r : UnknownOpcode) : (s.latch r).a = s.a := rfl
@[simp] theorem latch_x (s : State) (r : UnknownOpcode) : (s.latch r).x = s.x := rfl
@[simp] theorem latch_y (s : State) (r : UnknownOpcode) : (s.latch r).y = s.y := rfl
@[simp] theorem latch_sp (s : State) (r : UnknownOpcode) : (s.latch r).sp = s.sp := rfl
@[simp] theorem latch_pc (s : State) (r : UnknownOpcode) : (s.latch r).pc = s.pc := rfl
@[simp] theorem latch_p (s : State) (r : UnknownOpcode) : (s.latch r).p = s.p := rfl
@[simp] theorem latch_cycles (s : State) (r : UnknownOpcode) : (s.latch r).cycles = s.cycles := rfl
@[simp] theorem latch_fault (s : State) (r : UnknownOpcode) : (s.latch r).fault = some r := rfl
@[simp] theorem latch_created (s : State) (r : UnknownOpcode) : (s.latch r).created = s.created := rfl
@[simp] theorem latch_ram (s : State) (r : UnknownOpcode) : (s.latch r).ram = s.ram := rfl
@[simp] theorem latch_answers (s : State) (r : UnknownOpcode) : (s.latch r).answers = s.answers := rfl
@[simp] theorem latch_log (s : State) (r : UnknownOpcode) : (s.latch r).log = s.log := rfl

/-! ## A bus read and a bus write -/

@[simp] theorem read8_value (a : Word) (s : State) : (read8 a s).1 = s.busAnswer a := rfl
@[simp] theorem read8_a (a : Word) (s : State) : (read8 a s).2.a = s.a := rfl
@[simp] theorem read8_x (a : Word) (s : State) : (read8 a s).2.x = s.x := rfl
@[simp] theorem read8_y (a : Word) (s : State) : (read8 a s).2.y = s.y := rfl
@[simp] theorem read8_sp (a : Word) (s : State) : (read8 a s).2.sp = s.sp := rfl
@[simp] theorem read8_pc (a : Word) (s : State) : (read8 a s).2.pc = s.pc := rfl
@[simp] theorem read8_p (a : Word) (s : State) : (read8 a s).2.p = s.p := rfl
@[simp] theorem read8_cycles (a : Word) (s : State) : (read8 a s).2.cycles = s.cycles := rfl
@[simp] theorem read8_fault (a : Word) (s : State) : (read8 a s).2.fault = s.fault := rfl
@[simp] theorem read8_created (a : Word) (s : State) : (read8 a s).2.created = s.created := rfl
@[simp] theorem read8_ram (a : Word) (s : State) : (read8 a s).2.ram = s.ram := rfl
@[simp] theorem read8_answers (a : Word) (s : State) : (read8 a s).2.answers = s.answers.tail := rfl
@[simp] theorem read8_log (a : Word) (s : State) : (read8 a s).2.log = .read a (s.busAnswer a) :: s.log := rfl

@[simp] theorem write8_a (a : Word) (v : Byte) (s : State) : (write8 a v s).a = s.a := rfl
@[simp] theorem write8_x (a : Word) (v : Byte) (s : State) : (write8 a v s).x = s.x := rfl
@[simp] theorem write8_y (a : Word) (v : Byte) (s : State) : (write8 a v s).y = s.y := rfl
@[simp] theorem write8_sp (a : Word) (v : Byte) (s : State) : (write8 a v s).sp = s.sp := rfl
@[simp] theorem write8_pc (a : Word) (v : Byte) (s : State) : (write8 a v s).pc = s.pc := rfl
@[simp] theorem write8_p (a : Word) (v : Byte) (s : State) : (write8 a v s).p = s.p := rfl
@[simp] theorem write8_cycles (a : Word) (v : Byte) (s : State) : (write8 a v s).cycles = s.cycles := rfl
@[simp] theorem write8_fault (a : Word) (v : Byte) (s : State) : (write8 a v s).fault = s.fault := rfl
@[simp] theorem write8_created (a : Word) (v : Byte) (s : State) : (write8 a v s).created = s.created := rfl
@[simp] theorem write8_ram (a : Word) (v : Byte) (s : State) : (write8 a v s).ram = Memory.write s.ram a.toNat v := rfl
@[simp] theorem write8_answers (a : Word) (v : Byte) (s : State) : (write8 a v s).answers = s.answers := rfl
@[simp] theorem write8_log (a : Word) (v : Byte) (s : State) : (write8 a v s).log = .write a v :: s.log := rfl

/-! ## The status byte and the flags see P alone -/

@[simp] theorem setA_status (s : State) (v : Byte) : (s.setA v).status = s.status := rfl
@[simp] theorem setA_flag (s : State) (v : Byte) (f : Flag) : (s.setA v).flag f = s.flag f := rfl
@[simp] theorem setX_status (s : State) (v : Byte) : (s.setX v).status = s.status := rfl
@[simp] theorem setX_flag (s : State) (v : Byte) (f : Flag) : (s.setX v).flag f = s.flag f := rfl
@[simp] theorem setY_status (s : State) (v : Byte) : (s.setY v).status = s.status := rfl
@[simp] theorem setY_flag (s : State) (v : Byte) (f : Flag) : (s.setY v).flag f = s.flag f := rfl
@[simp] theorem setSP_status (s : State) (v : Byte) : (s.setSP v).status = s.status := rfl
@[simp] theorem setSP_flag (s : State) (v : Byte) (f : Flag) : (s.setSP v).flag f = s.flag f := rfl
@[simp] theorem setPC_status (s : State) (v : Word) : (s.setPC v).status = s.status := rfl
@[simp] theorem setPC_flag (s : State) (v : Word) (f : Flag) : (s.setPC v).flag f = s.flag f := rfl
@[simp] theorem addCycles_status (s : State) (n : Nat) : (s.addCycles n).status = s.status := rfl
@[simp] theorem addCycles_flag (s : State) (n : Nat) (f : Flag) : (s.addCycles n).flag f = s.flag f := rfl
@[simp] theorem latch_status (s : State) (r : UnknownOpcode) : (s.latch r).status = s.status := rfl
@[simp] theorem latch_flag (s : State) (r : UnknownOpcode) (f : Flag) : (s.latch r).flag f = s.flag f := rfl
@[simp] theorem read8_status (a : Word) (s : State) : (read8 a s).2.status = s.status := rfl
@[simp] theorem read8_flag (a : Word) (s : State) (f : Flag) : (read8 a s).2.flag f = s.flag f := rfl
@[simp] theorem write8_status (a : Word) (v : Byte) (s : State) : (write8 a v s).status = s.status := rfl
@[simp] theorem write8_flag (a : Word) (v : Byte) (s : State) (f : Flag) : (write8 a v s).flag f = s.flag f := rfl

/-! ## What the bus answers depends on RAM and the pending answers alone -/

@[simp] theorem setA_busAnswer (s : State) (v : Byte) (w : Word) : (s.setA v).busAnswer w = s.busAnswer w := rfl
@[simp] theorem setX_busAnswer (s : State) (v : Byte) (w : Word) : (s.setX v).busAnswer w = s.busAnswer w := rfl
@[simp] theorem setY_busAnswer (s : State) (v : Byte) (w : Word) : (s.setY v).busAnswer w = s.busAnswer w := rfl
@[simp] theorem setSP_busAnswer (s : State) (v : Byte) (w : Word) : (s.setSP v).busAnswer w = s.busAnswer w := rfl
@[simp] theorem setPC_busAnswer (s : State) (v : Word) (w : Word) : (s.setPC v).busAnswer w = s.busAnswer w := rfl
@[simp] theorem setP_busAnswer (s : State) (v : Byte) (w : Word) : (s.setP v).busAnswer w = s.busAnswer w := rfl
@[simp] theorem addCycles_busAnswer (s : State) (n : Nat) (w : Word) : (s.addCycles n).busAnswer w = s.busAnswer w := rfl
@[simp] theorem setFlag_busAnswer (s : State) (f : Flag) (b : Bool) (w : Word) : (s.setFlag f b).busAnswer w = s.busAnswer w := rfl
@[simp] theorem setZN_busAnswer (s : State) (v : Byte) (w : Word) : (s.setZN v).busAnswer w = s.busAnswer w := rfl
@[simp] theorem latch_busAnswer (s : State) (r : UnknownOpcode) (w : Word) : (s.latch r).busAnswer w = s.busAnswer w := rfl

end Sys2Proof.Machine
end

