-- ==== Sys2Proof/Laws/Flags.lean ====
section
/-! SUPPORT. The flags of a state after each update of P (10_state.md R23, R24; 40_execution_control.md R117). -/

namespace Sys2Proof.Machine

@[simp] theorem withUnused_idem (v : Byte) : withUnused (withUnused v) = withUnused v := by
  simp [withUnused, BitVec.or_assoc]

/-- Bit 5 is 1 in every byte P is written with. -/
@[simp] theorem withUnused_bit5 (v : Byte) : (withUnused v).getLsbD 5 = true := by
  simp [withUnused]

/-- A byte whose bit 5 is set is not changed by setting it. -/
theorem withUnused_of_bit5 {v : Byte} (h : v.getLsbD 5 = true) : withUnused v = v := by
  revert h; revert v; decide

/-- One flag bit of a written byte. -/
theorem putFlag_bit (f g : Flag) (b : Bool) (v : Byte) :
    (putFlag f b v).getLsbD g.bit = if g = f then b else v.getLsbD g.bit := by
  cases b <;> cases f <;> cases g <;> simp [putFlag, Flag.mask, Flag.bit]

/-- The mask of bit 5 as seen flag by flag. -/
theorem withUnused_bit (g : Flag) (v : Byte) :
    (withUnused v).getLsbD g.bit = if g = .U then true else v.getLsbD g.bit := by
  cases g <;> simp [withUnused, Flag.bit]

/-- A flag of a state, by its stored byte. -/
theorem flag_eq (s : State) (g : Flag) : s.flag g = if g = .U then true else s.p.getLsbD g.bit :=
  withUnused_bit g s.p

/-- R24: the Unused flag reads as 1. -/
@[simp] theorem flag_U (s : State) : s.flag .U = true := by simp [flag_eq]

@[simp] theorem setP_status (s : State) (v : Byte) : (s.setP v).status = withUnused v := by
  simp [State.status]

/-- A flag after the whole of P is written. -/
theorem setP_flag (s : State) (v : Byte) (g : Flag) :
    (s.setP v).flag g = if g = .U then true else v.getLsbD g.bit := by
  simp only [State.flag, setP_status, withUnused_bit]

/-- A flag after one flag is written. -/
theorem setFlag_flag (s : State) (f g : Flag) (b : Bool) :
    (s.setFlag f b).flag g = if g = .U then true else if g = f then b else s.flag g := by
  unfold State.setFlag
  rw [setP_flag, putFlag_bit, flag_eq]
  split <;> simp_all

/-- A flag after Z and N are written. -/
theorem setZN_flag (s : State) (v : Byte) (g : Flag) :
    (s.setZN v).flag g = if g = .Z then v == 0 else if g = .N then v.getLsbD 7 else s.flag g := by
  unfold State.setZN
  rw [setFlag_flag, setFlag_flag]
  cases g <;> simp

/-- Two states with the same flags have the same status byte. -/
theorem status_ext {s t : State} (h : ∀ f, t.flag f = s.flag f) : t.status = s.status := by
  apply BitVec.eq_of_getLsbD_eq
  intro k hk
  have : k = 0 ∨ k = 1 ∨ k = 2 ∨ k = 3 ∨ k = 4 ∨ k = 5 ∨ k = 6 ∨ k = 7 := by omega
  rcases this with rfl | rfl | rfl | rfl | rfl | rfl | rfl | rfl
  exacts [h .C, h .Z, h .I, h .D, h .B, h .U, h .V, h .N]

end Sys2Proof.Machine
end

