-- ==== Sys2Proof/Laws/Memory.lean ====
section
/-! SUPPORT. Memory: a byte written is the byte read, every other byte is left, and the canonical form is kept. -/

namespace Sys2Proof.Machine

@[simp] theorem Memory.read_nil (a : Nat) : Memory.read [] a = Memory.unlisted := rfl

theorem Memory.read_erase (m : Memory) (a b : Nat) :
    Memory.read (Memory.erase m a) b = if b = a then Memory.unlisted else Memory.read m b := by
  induction m with
  | nil => simp [Memory.erase]
  | cons c m ih =>
    obtain ⟨k, v⟩ := c
    unfold Memory.erase at ih ⊢
    by_cases hk : k = a <;> by_cases hb : k = b <;> simp_all [Memory.read]

theorem Memory.read_insert {m : Memory} {a : Nat} (h : ∀ c ∈ m, c.1 ≠ a) (v : Byte) (b : Nat) :
    Memory.read (Memory.insert m a v) b = if b = a then v else Memory.read m b := by
  induction m with
  | nil => simp [Memory.insert, Memory.read, eq_comm]
  | cons c m ih =>
    obtain ⟨k, u⟩ := c
    have hk : k ≠ a := h (k, u) (by simp)
    have ih := ih (fun c hc => h c (by simp [hc]))
    unfold Memory.insert
    split
    · simp only [Memory.read, eq_comm]
    · by_cases hb : k = b
      · have : b ≠ a := fun e => hk (hb.trans e)
        simp [Memory.read, hb, this]
      · simp [Memory.read, hb, ih]

theorem Memory.erase_ne {m : Memory} {a : Nat} : ∀ c ∈ Memory.erase m a, c.1 ≠ a := by
  simp [Memory.erase]

/-- A byte written is the byte read, and every other byte is left. -/
theorem Memory.read_write (m : Memory) (a : Nat) (v : Byte) (b : Nat) :
    Memory.read (Memory.write m a v) b = if b = a then v else Memory.read m b := by
  unfold Memory.write
  split
  · rw [Memory.read_erase]; simp_all
  · rw [Memory.read_insert Memory.erase_ne, Memory.read_erase]; split <;> rfl

theorem Memory.mem_insert {m : Memory} {a : Nat} {v : Byte} {c : Host.Cell} (h : c ∈ Memory.insert m a v) :
    c = (a, v) ∨ c ∈ m := by
  induction m with
  | nil => simpa [Memory.insert] using h
  | cons d m ih =>
    obtain ⟨k, u⟩ := d
    unfold Memory.insert at h
    split at h
    · simpa using h
    · rcases List.mem_cons.1 h with rfl | h
      · simp
      · rcases ih h with rfl | h <;> simp [*]

theorem Memory.pairwise_insert {m : Memory} {a : Nat} {v : Byte} (h : m.Pairwise (fun c d => c.1 < d.1))
    (ha : ∀ c ∈ m, c.1 ≠ a) : (Memory.insert m a v).Pairwise (fun c d => c.1 < d.1) := by
  induction m with
  | nil => simp [Memory.insert]
  | cons d m ih =>
    obtain ⟨k, u⟩ := d
    have hd := List.pairwise_cons.1 h
    have hk : k ≠ a := ha (k, u) (by simp)
    unfold Memory.insert
    split
    · rename_i hlt
      refine List.pairwise_cons.2 ⟨fun c hc => ?_, h⟩
      rcases List.mem_cons.1 hc with rfl | hc
      · exact hlt
      · exact Nat.lt_trans hlt (hd.1 c hc)
    · rename_i hlt
      refine List.pairwise_cons.2 ⟨fun c hc => ?_, ih hd.2 (fun c hc => ha c (by simp [hc]))⟩
      rcases Memory.mem_insert hc with rfl | hc
      · show k < a; omega
      · exact hd.1 c hc

theorem Memory.wf_erase {m : Memory} (h : Memory.wf m) (a : Nat) : Memory.wf (Memory.erase m a) :=
  ⟨h.1.filter _, fun c hc => h.2 c (List.mem_of_mem_filter hc)⟩

/-- A write keeps the canonical form. -/
theorem Memory.wf_write {m : Memory} (h : Memory.wf m) {a : Nat} (ha : a < 2 ^ 16) (v : Byte) :
    Memory.wf (Memory.write m a v) := by
  unfold Memory.write
  split
  · exact Memory.wf_erase h a
  · rename_i hv
    refine ⟨Memory.pairwise_insert (Memory.wf_erase h a).1 Memory.erase_ne, fun c hc => ?_⟩
    rcases Memory.mem_insert hc with rfl | hc
    · exact ⟨ha, hv⟩
    · exact (Memory.wf_erase h a).2 c hc

/-- A bus write keeps the canonical form: its address is a word. -/
theorem write8_wf {s : State} (h : Memory.wf s.ram) (a : Word) (v : Byte) : Memory.wf (write8 a v s).ram :=
  Memory.wf_write h a.isLt v

/-- Equal memories are equal data: in canonical form, memories that read alike are one list. -/
theorem Memory.ext_of_wf {m n : Memory} (hm : Memory.wf m) (hn : Memory.wf n)
    (h : ∀ a, Memory.read m a = Memory.read n a) : m = n := by
  have read_mem : ∀ {m : Memory}, m.Pairwise (fun c d => c.1 < d.1) → ∀ c ∈ m, Memory.read m c.1 = c.2 := by
    intro m hp c hc
    induction m with
    | nil => simp at hc
    | cons d m ih =>
      obtain ⟨k, u⟩ := d
      have hd := List.pairwise_cons.1 hp
      rcases List.mem_cons.1 hc with rfl | hc
      · simp [Memory.read]
      · have : k ≠ c.1 := Nat.ne_of_lt (hd.1 c hc)
        simp [Memory.read, this, ih hd.2 hc]
  have mem_read : ∀ {m : Memory} {a : Nat}, Memory.read m a ≠ Memory.unlisted → (a, Memory.read m a) ∈ m := by
    intro m a ha
    induction m with
    | nil => simp at ha
    | cons d m ih =>
      obtain ⟨k, u⟩ := d
      by_cases hk : k = a
      · simp [Memory.read, hk]
      · simp only [Memory.read, hk, if_false] at ha ⊢
        exact List.mem_cons_of_mem _ (ih ha)
  have sub : ∀ {m n : Memory}, Memory.wf m → (∀ a, Memory.read m a = Memory.read n a) → ∀ c ∈ m, c ∈ n := by
    intro m n hm h c hc
    have hr := read_mem hm.1 c hc
    have hne : Memory.read n c.1 ≠ Memory.unlisted := by rw [← h, hr]; exact (hm.2 c hc).2
    have := mem_read hne
    rwa [← h, hr] at this
  have nodup : ∀ {m : Memory}, Memory.wf m → m.Nodup := fun hm =>
    hm.1.imp (fun hlt heq => by rw [heq] at hlt; exact Nat.lt_irrefl _ hlt)
  have perm : m.Perm n := (List.perm_ext_iff_of_nodup (nodup hm) (nodup hn)).2
    fun c => ⟨sub hm h c, sub hn (fun a => (h a).symm) c⟩
  exact perm.eq_of_pairwise (fun c d _ _ h1 h2 => absurd h1 (Nat.lt_asymm h2)) hm.1 hn.1

/-! ## One byte of RAM, through `peek` -/

/-- R51: what a bus write leaves in RAM. -/
theorem peek_write8 (a : Word) (v : Byte) (s : State) (b : Word) :
    peek (write8 a v s) b = if b = a then v else peek s b := by
  show Memory.read (Memory.write _ _ _) _ = _
  rw [Memory.read_write]
  by_cases h : b = a
  · simp [h]
  · have : b.toNat ≠ a.toNat := fun e => h (BitVec.eq_of_toNat_eq e)
    simp [h, this, peek]

/-- States with one RAM show one byte. -/
theorem peek_congr {s t : State} (h : t.ram = s.ram) (a : Word) : peek t a = peek s a := by
  simp [peek, h]

theorem sameMem_of_ram {s t : State} (h : t.ram = s.ram) (l : List Word) : SameMemExcept l s t :=
  fun a _ => peek_congr h a

/-- On a flat bus a read answers the byte of RAM. -/
theorem busAnswer_flat {s : State} (h : s.FlatBus) (a : Word) : s.busAnswer a = peek s a := by
  simp [State.busAnswer, peek, show s.answers = [] from h]

end Sys2Proof.Machine
end

