-- ==== Sys2Proof/Laws/Ops.lean ====
section
/-! SUPPORT. What the bus, stack, resolver and operand operations leave of the state: they change what they are for and
nothing else.  A read changes only the bus's pending answers and the log. -/

namespace Sys2Proof.Machine

/-! ## What the bus answers to a later read -/

theorem busAnswer_eq_nthAnswer (s : State) (a : Word) : s.busAnswer a = s.nthAnswer 0 a := by
  unfold State.busAnswer State.nthAnswer
  rcases s.answers with _ | ⟨_ | v, rest⟩ <;> rfl

/-- The `k`-th answer after `n` reads more, at an address whose byte of RAM has not changed. -/
theorem nthAnswer_congr {s t : State} (n : Nat) {a : Word} (ha : t.answers = s.answers.drop n)
    (hp : peek t a = peek s a) (k : Nat) : t.nthAnswer k a = s.nthAnswer (n + k) a := by
  unfold peek at hp
  simp [State.nthAnswer, ha, hp]

/-- The `k`-th answer after one read. -/
@[simp] theorem read8_nthAnswer (a : Word) (s : State) (k : Nat) (b : Word) :
    (read8 a s).2.nthAnswer k b = s.nthAnswer (k + 1) b := by
  rw [nthAnswer_congr (s := s) (t := (read8 a s).2) 1 (by simp [List.drop_one]) rfl, Nat.add_comm]

/-- On a flat bus every read is answered from RAM. -/
theorem nthAnswer_flat {s : State} (h : s.FlatBus) (k : Nat) (a : Word) : s.nthAnswer k a = peek s a := by
  simp [State.nthAnswer, peek, show s.answers = [] from h]

/-! ## Two reads -/

@[simp] theorem read16_a (a : Word) (s : State) : (read16 a s).2.a = s.a := rfl
@[simp] theorem read16_x (a : Word) (s : State) : (read16 a s).2.x = s.x := rfl
@[simp] theorem read16_y (a : Word) (s : State) : (read16 a s).2.y = s.y := rfl
@[simp] theorem read16_sp (a : Word) (s : State) : (read16 a s).2.sp = s.sp := rfl
@[simp] theorem read16_pc (a : Word) (s : State) : (read16 a s).2.pc = s.pc := rfl
@[simp] theorem read16_p (a : Word) (s : State) : (read16 a s).2.p = s.p := rfl
@[simp] theorem read16_cycles (a : Word) (s : State) : (read16 a s).2.cycles = s.cycles := rfl
@[simp] theorem read16_fault (a : Word) (s : State) : (read16 a s).2.fault = s.fault := rfl
@[simp] theorem read16_created (a : Word) (s : State) : (read16 a s).2.created = s.created := rfl
@[simp] theorem read16_ram (a : Word) (s : State) : (read16 a s).2.ram = s.ram := rfl
@[simp] theorem read16_status (a : Word) (s : State) : (read16 a s).2.status = s.status := rfl
@[simp] theorem read16_flag (a : Word) (s : State) (f : Flag) : (read16 a s).2.flag f = s.flag f := rfl

@[simp] theorem read16_log (a : Word) (s : State) : (read16 a s).2.log =
    .read (a + 1) ((read8 a s).2.busAnswer (a + 1)) :: .read a (s.busAnswer a) :: s.log := rfl
@[simp] theorem read16_answers (a : Word) (s : State) : (read16 a s).2.answers = s.answers.tail.tail := rfl

/-- R52: the two answers, the low byte's first. -/
theorem read16_answer (a : Word) (s : State) : (read16 a s).1 = word16 (s.nthAnswer 1 (a + 1)) (s.nthAnswer 0 a) := by
  rw [← busAnswer_eq_nthAnswer, ← read8_nthAnswer a, ← busAnswer_eq_nthAnswer]; rfl

theorem read16_value (a : Word) (s : State) :
    (read16 a s).1 = word16 ((read8 a s).2.busAnswer (a + 1)) (s.busAnswer a) := rfl

/-! ## The stack -/

/-- R58: the stack byte of an SP value is in page 1. -/
theorem stackAddr_eq (sp : Byte) : stackAddr sp = word16 1 sp := by revert sp; decide +kernel

/-- R60: what a push leaves in RAM. -/
theorem peek_push8 (v : Byte) (s : State) (b : Word) :
    peek (push8 v s) b = if b = word16 1 s.sp then v else peek s b := by
  rw [← stackAddr_eq]; exact peek_write8 _ _ _ _

/-- R62: what a pushed word leaves in RAM. -/
theorem peek_push16 (v : Word) (s : State) (b : Word) :
    peek (push16 v s) b = if b = word16 1 (s.sp - 1) then v.lo else if b = word16 1 s.sp then v.hi else peek s b := by
  unfold push16; rw [peek_push8, peek_push8]; rfl

@[simp] theorem push8_a (v : Byte) (s : State) : (push8 v s).a = s.a := rfl
@[simp] theorem push8_x (v : Byte) (s : State) : (push8 v s).x = s.x := rfl
@[simp] theorem push8_y (v : Byte) (s : State) : (push8 v s).y = s.y := rfl
@[simp] theorem push8_sp (v : Byte) (s : State) : (push8 v s).sp = s.sp - 1 := rfl
@[simp] theorem push8_pc (v : Byte) (s : State) : (push8 v s).pc = s.pc := rfl
@[simp] theorem push8_p (v : Byte) (s : State) : (push8 v s).p = s.p := rfl
@[simp] theorem push8_cycles (v : Byte) (s : State) : (push8 v s).cycles = s.cycles := rfl
@[simp] theorem push8_fault (v : Byte) (s : State) : (push8 v s).fault = s.fault := rfl
@[simp] theorem push8_created (v : Byte) (s : State) : (push8 v s).created = s.created := rfl
@[simp] theorem push8_ram (v : Byte) (s : State) : (push8 v s).ram = Memory.write s.ram (stackAddr s.sp).toNat v := rfl
@[simp] theorem push8_answers (v : Byte) (s : State) : (push8 v s).answers = s.answers := rfl
@[simp] theorem push8_log (v : Byte) (s : State) : (push8 v s).log = .write (stackAddr s.sp) v :: s.log := rfl
@[simp] theorem push8_status (v : Byte) (s : State) : (push8 v s).status = s.status := rfl
@[simp] theorem push8_flag (v : Byte) (s : State) (f : Flag) : (push8 v s).flag f = s.flag f := rfl

theorem sub_one_sub_one (b : Byte) : b - 1 - 1 = b - 2 := by revert b; decide
theorem sub_two_sub_one (b : Byte) : b - 2 - 1 = b - 3 := by revert b; decide
theorem add_one_add_one (b : Byte) : b + 1 + 1 = b + 2 := by revert b; decide
theorem add_two_add_one (b : Byte) : b + 2 + 1 = b + 3 := by revert b; decide

/-! ## A pop -/

@[simp] theorem pop8_a (s : State) : (pop8 s).2.a = s.a := rfl
@[simp] theorem pop8_x (s : State) : (pop8 s).2.x = s.x := rfl
@[simp] theorem pop8_y (s : State) : (pop8 s).2.y = s.y := rfl
@[simp] theorem pop8_sp (s : State) : (pop8 s).2.sp = s.sp + 1 := rfl
@[simp] theorem pop8_pc (s : State) : (pop8 s).2.pc = s.pc := rfl
@[simp] theorem pop8_p (s : State) : (pop8 s).2.p = s.p := rfl
@[simp] theorem pop8_cycles (s : State) : (pop8 s).2.cycles = s.cycles := rfl
@[simp] theorem pop8_fault (s : State) : (pop8 s).2.fault = s.fault := rfl
@[simp] theorem pop8_created (s : State) : (pop8 s).2.created = s.created := rfl
@[simp] theorem pop8_ram (s : State) : (pop8 s).2.ram = s.ram := rfl
@[simp] theorem pop8_answers (s : State) : (pop8 s).2.answers = s.answers.tail := rfl
@[simp] theorem pop8_log (s : State) : (pop8 s).2.log = .read (stackAddr (s.sp + 1)) (s.busAnswer (stackAddr (s.sp + 1))) :: s.log := rfl
@[simp] theorem pop8_status (s : State) : (pop8 s).2.status = s.status := rfl
@[simp] theorem pop8_flag (s : State) (f : Flag) : (pop8 s).2.flag f = s.flag f := rfl

@[simp] theorem pop8_value (s : State) : (pop8 s).1 = s.busAnswer (stackAddr (s.sp + 1)) := rfl

/-- R61: the byte popped is one answer of the bus. -/
theorem pop8_answer (s : State) : (pop8 s).1 = s.nthAnswer 0 (word16 1 (s.sp + 1)) := by
  rw [pop8_value, busAnswer_eq_nthAnswer, stackAddr_eq]

@[simp] theorem pop8_nthAnswer (s : State) (k : Nat) (b : Word) : (pop8 s).2.nthAnswer k b = s.nthAnswer (k + 1) b := by
  rw [nthAnswer_congr (s := s) (t := (pop8 s).2) 1 (by simp [List.drop_one]) rfl, Nat.add_comm]

/-! ## Two pushes -/

@[simp] theorem push16_a (v : Word) (s : State) : (push16 v s).a = s.a := rfl
@[simp] theorem push16_x (v : Word) (s : State) : (push16 v s).x = s.x := rfl
@[simp] theorem push16_y (v : Word) (s : State) : (push16 v s).y = s.y := rfl
@[simp] theorem push16_pc (v : Word) (s : State) : (push16 v s).pc = s.pc := rfl
@[simp] theorem push16_p (v : Word) (s : State) : (push16 v s).p = s.p := rfl
@[simp] theorem push16_cycles (v : Word) (s : State) : (push16 v s).cycles = s.cycles := rfl
@[simp] theorem push16_fault (v : Word) (s : State) : (push16 v s).fault = s.fault := rfl
@[simp] theorem push16_created (v : Word) (s : State) : (push16 v s).created = s.created := rfl
@[simp] theorem push16_answers (v : Word) (s : State) : (push16 v s).answers = s.answers := rfl
@[simp] theorem push16_log (v : Word) (s : State) : (push16 v s).log = .write (stackAddr (s.sp - 1)) v.lo :: .write (stackAddr s.sp) v.hi :: s.log := rfl
@[simp] theorem push16_status (v : Word) (s : State) : (push16 v s).status = s.status := rfl
@[simp] theorem push16_flag (v : Word) (s : State) (f : Flag) : (push16 v s).flag f = s.flag f := rfl

@[simp] theorem push16_sp (v : Word) (s : State) : (push16 v s).sp = s.sp - 1 - 1 := rfl

/-! ## Two pops -/

@[simp] theorem pop16_a (s : State) : (pop16 s).2.a = s.a := rfl
@[simp] theorem pop16_x (s : State) : (pop16 s).2.x = s.x := rfl
@[simp] theorem pop16_y (s : State) : (pop16 s).2.y = s.y := rfl
@[simp] theorem pop16_pc (s : State) : (pop16 s).2.pc = s.pc := rfl
@[simp] theorem pop16_p (s : State) : (pop16 s).2.p = s.p := rfl
@[simp] theorem pop16_cycles (s : State) : (pop16 s).2.cycles = s.cycles := rfl
@[simp] theorem pop16_fault (s : State) : (pop16 s).2.fault = s.fault := rfl
@[simp] theorem pop16_created (s : State) : (pop16 s).2.created = s.created := rfl
@[simp] theorem pop16_ram (s : State) : (pop16 s).2.ram = s.ram := rfl
@[simp] theorem pop16_status (s : State) : (pop16 s).2.status = s.status := rfl
@[simp] theorem pop16_flag (s : State) (f : Flag) : (pop16 s).2.flag f = s.flag f := rfl

@[simp] theorem pop16_answers (s : State) : (pop16 s).2.answers = s.answers.tail.tail := rfl

/-- R63: the word popped is two answers of the bus, the low byte's first. -/
theorem pop16_answer (s : State) :
    (pop16 s).1 = word16 (s.nthAnswer 1 (word16 1 (s.sp + 1 + 1))) (s.nthAnswer 0 (word16 1 (s.sp + 1))) := by
  rw [← pop8_answer, ← pop8_nthAnswer, show s.sp + 1 + 1 = (pop8 s).2.sp + 1 from rfl, ← pop8_answer]; rfl

@[simp] theorem pop16_sp (s : State) : (pop16 s).2.sp = s.sp + 1 + 1 := rfl

/-! ## Pages -/

theorem pageOf_word16 (hi lo : Byte) : pageOf (word16 hi lo) = word16 hi 0 := by
  unfold pageOf word16
  rw [show (0xFF00 : Word) = (0xFF#8 ++ 0x00#8 : BitVec (8 + 8)) from rfl]
  show (hi ++ lo : BitVec (8 + 8)) &&& _ = (hi ++ 0#8 : BitVec (8 + 8))
  rw [BitVec.and_append, show (0xFF#8) = BitVec.allOnes 8 from rfl, BitVec.and_allOnes, BitVec.and_zero]

/-- Two addresses are on one page when their high bytes are the same. -/
theorem pageOf_eq_iff (a b : Word) : pageOf a = pageOf b ↔ a.hi = b.hi := by
  rw [← word16_hi_lo a, ← word16_hi_lo b, pageOf_word16, pageOf_word16, word16_inj, word16_hi, word16_hi]
  simp

/-- R116: the page-cross test compares high bytes. -/
theorem pageCrossed_iff (ea base : Word) : pageCrossed ea base = true ↔ ea.hi ≠ base.hi := by
  simp [pageCrossed, pageOf_eq_iff]

/-- R112: the high byte of an indirect target is read in the pointer's page, after the pointer's low byte plus 1. -/
theorem indirectHighAddr_eq (w : Word) : indirectHighAddr w = word16 w.hi (w.lo + 1) := by
  rw [← word16_hi_lo w]
  generalize w.hi = h, w.lo = l
  show pageOf (word16 h l) ||| ((word16 h l + 1) &&& 0x00FF) = _
  have : (word16 h l + 1) &&& 0x00FF = word16 0 (l + 1) := by
    apply BitVec.eq_of_toNat_eq
    rw [BitVec.toNat_and, BitVec.toNat_add, word16_toNat, word16_toNat, show (0x00FF : Word).toNat = 2 ^ 8 - 1 from rfl,
      Nat.and_two_pow_sub_one_eq_mod, BitVec.toNat_add]
    simp; omega
  rw [pageOf_word16, word16_hi, word16_lo, this]
  show ((h ++ 0#8 : BitVec (8 + 8)) ||| (0#8 ++ (l + 1) : BitVec (8 + 8))) = _
  rw [BitVec.or_append, BitVec.or_zero, BitVec.zero_or]; rfl

/-! ## The resolver -/

@[simp] theorem resolve_a (o : Operand) (s : State) : (resolve o s).state.a = s.a := by cases o <;> rfl
@[simp] theorem resolve_x (o : Operand) (s : State) : (resolve o s).state.x = s.x := by cases o <;> rfl
@[simp] theorem resolve_y (o : Operand) (s : State) : (resolve o s).state.y = s.y := by cases o <;> rfl
@[simp] theorem resolve_sp (o : Operand) (s : State) : (resolve o s).state.sp = s.sp := by cases o <;> rfl
@[simp] theorem resolve_pc (o : Operand) (s : State) : (resolve o s).state.pc = s.pc := by cases o <;> rfl
@[simp] theorem resolve_p (o : Operand) (s : State) : (resolve o s).state.p = s.p := by cases o <;> rfl
@[simp] theorem resolve_cycles (o : Operand) (s : State) : (resolve o s).state.cycles = s.cycles := by cases o <;> rfl
@[simp] theorem resolve_fault (o : Operand) (s : State) : (resolve o s).state.fault = s.fault := by cases o <;> rfl
@[simp] theorem resolve_created (o : Operand) (s : State) : (resolve o s).state.created = s.created := by cases o <;> rfl
@[simp] theorem resolve_ram (o : Operand) (s : State) : (resolve o s).state.ram = s.ram := by cases o <;> rfl
@[simp] theorem resolve_status (o : Operand) (s : State) : (resolve o s).state.status = s.status := by cases o <;> rfl
@[simp] theorem resolve_flag (o : Operand) (s : State) (f : Flag) : (resolve o s).state.flag f = s.flag f := by cases o <;> rfl

/-- R112: the effective address of an indirect jump. -/
theorem resolve_ind_target (w : Word) (s : State) :
    (resolve (.ind w) s).target = word16 (s.nthAnswer 1 (word16 w.hi (w.lo + 1))) (s.nthAnswer 0 w) := by
  rw [← read8_nthAnswer w, ← busAnswer_eq_nthAnswer, ← busAnswer_eq_nthAnswer, ← indirectHighAddr_eq]; rfl

/-- The pointer reads are the resolver's only bus accesses (R105, R131). -/
theorem resolve_answers (o : Operand) (s : State) :
    (resolve o s).state.answers = s.answers.drop (pointerReads o s).length := by
  cases o <;> simp [resolve, resolvedAt, resolvedIndexed, readIndirectTarget, readZeroPagePointer, pointerReads] <;>
    rw [← List.drop_one, ← List.drop_one, List.drop_drop]

/-! ## The class read -/

@[simp] theorem loadOperand_a (o : Operand) (s : State) : (loadOperand o (resolve o s)).2.a = s.a := by cases o <;> rfl
@[simp] theorem loadOperand_x (o : Operand) (s : State) : (loadOperand o (resolve o s)).2.x = s.x := by cases o <;> rfl
@[simp] theorem loadOperand_y (o : Operand) (s : State) : (loadOperand o (resolve o s)).2.y = s.y := by cases o <;> rfl
@[simp] theorem loadOperand_sp (o : Operand) (s : State) : (loadOperand o (resolve o s)).2.sp = s.sp := by cases o <;> rfl
@[simp] theorem loadOperand_pc (o : Operand) (s : State) : (loadOperand o (resolve o s)).2.pc = s.pc := by cases o <;> rfl
@[simp] theorem loadOperand_p (o : Operand) (s : State) : (loadOperand o (resolve o s)).2.p = s.p := by cases o <;> rfl
@[simp] theorem loadOperand_cycles (o : Operand) (s : State) : (loadOperand o (resolve o s)).2.cycles = s.cycles := by cases o <;> rfl
@[simp] theorem loadOperand_fault (o : Operand) (s : State) : (loadOperand o (resolve o s)).2.fault = s.fault := by cases o <;> rfl
@[simp] theorem loadOperand_created (o : Operand) (s : State) : (loadOperand o (resolve o s)).2.created = s.created := by cases o <;> rfl
@[simp] theorem loadOperand_ram (o : Operand) (s : State) : (loadOperand o (resolve o s)).2.ram = s.ram := by cases o <;> rfl
@[simp] theorem loadOperand_status (o : Operand) (s : State) : (loadOperand o (resolve o s)).2.status = s.status := by cases o <;> rfl
@[simp] theorem loadOperand_flag (o : Operand) (s : State) (f : Flag) : (loadOperand o (resolve o s)).2.flag f = s.flag f := by cases o <;> rfl

/-! ## The state after the operand -/

@[simp] theorem afterOperand_a (i : Instr) (s : State) : (afterOperand i s).a = s.a := by unfold afterOperand; simp
@[simp] theorem afterOperand_x (i : Instr) (s : State) : (afterOperand i s).x = s.x := by unfold afterOperand; simp
@[simp] theorem afterOperand_y (i : Instr) (s : State) : (afterOperand i s).y = s.y := by unfold afterOperand; simp
@[simp] theorem afterOperand_sp (i : Instr) (s : State) : (afterOperand i s).sp = s.sp := by unfold afterOperand; simp
@[simp] theorem afterOperand_pc (i : Instr) (s : State) : (afterOperand i s).pc = s.pc := by unfold afterOperand; simp
@[simp] theorem afterOperand_p (i : Instr) (s : State) : (afterOperand i s).p = s.p := by unfold afterOperand; simp
@[simp] theorem afterOperand_cycles (i : Instr) (s : State) : (afterOperand i s).cycles = s.cycles := by unfold afterOperand; simp
@[simp] theorem afterOperand_fault (i : Instr) (s : State) : (afterOperand i s).fault = s.fault := by unfold afterOperand; simp
@[simp] theorem afterOperand_created (i : Instr) (s : State) : (afterOperand i s).created = s.created := by unfold afterOperand; simp
@[simp] theorem afterOperand_ram (i : Instr) (s : State) : (afterOperand i s).ram = s.ram := by unfold afterOperand; simp
@[simp] theorem afterOperand_status (i : Instr) (s : State) : (afterOperand i s).status = s.status := by unfold afterOperand; simp
@[simp] theorem afterOperand_flag (i : Instr) (s : State) (f : Flag) : (afterOperand i s).flag f = s.flag f := by unfold afterOperand; simp

/-! ## A result put back -/

@[simp] theorem storeOperand_x (ea : Option Word) (v : Byte) (s : State) : (storeOperand ea v s).x = s.x := by cases ea <;> rfl
@[simp] theorem storeOperand_y (ea : Option Word) (v : Byte) (s : State) : (storeOperand ea v s).y = s.y := by cases ea <;> rfl
@[simp] theorem storeOperand_sp (ea : Option Word) (v : Byte) (s : State) : (storeOperand ea v s).sp = s.sp := by cases ea <;> rfl
@[simp] theorem storeOperand_pc (ea : Option Word) (v : Byte) (s : State) : (storeOperand ea v s).pc = s.pc := by cases ea <;> rfl
@[simp] theorem storeOperand_p (ea : Option Word) (v : Byte) (s : State) : (storeOperand ea v s).p = s.p := by cases ea <;> rfl
@[simp] theorem storeOperand_cycles (ea : Option Word) (v : Byte) (s : State) : (storeOperand ea v s).cycles = s.cycles := by cases ea <;> rfl
@[simp] theorem storeOperand_fault (ea : Option Word) (v : Byte) (s : State) : (storeOperand ea v s).fault = s.fault := by cases ea <;> rfl
@[simp] theorem storeOperand_created (ea : Option Word) (v : Byte) (s : State) : (storeOperand ea v s).created = s.created := by cases ea <;> rfl
@[simp] theorem storeOperand_answers (ea : Option Word) (v : Byte) (s : State) : (storeOperand ea v s).answers = s.answers := by cases ea <;> rfl
@[simp] theorem storeOperand_status (ea : Option Word) (v : Byte) (s : State) : (storeOperand ea v s).status = s.status := by cases ea <;> rfl
@[simp] theorem storeOperand_flag (ea : Option Word) (v : Byte) (s : State) (f : Flag) : (storeOperand ea v s).flag f = s.flag f := by cases ea <;> rfl

/-! ## Interrupt entry and return -/

/-- Interrupt entry as its last two reads and the jump. -/
theorem enterInterrupt_eq (r : Word) (v : Byte) (w : Word) (s : State) :
    enterInterrupt r v w s =
      (read16 w ((push8 v (push16 r s)).setFlag .I true)).2.setPC
        (read16 w ((push8 v (push16 r s)).setFlag .I true)).1 := rfl

@[simp] theorem enterInterrupt_a (r : Word) (v : Byte) (w : Word) (s : State) : (enterInterrupt r v w s).a = s.a := by
  simp [enterInterrupt_eq]
@[simp] theorem enterInterrupt_x (r : Word) (v : Byte) (w : Word) (s : State) : (enterInterrupt r v w s).x = s.x := by
  simp [enterInterrupt_eq]
@[simp] theorem enterInterrupt_y (r : Word) (v : Byte) (w : Word) (s : State) : (enterInterrupt r v w s).y = s.y := by
  simp [enterInterrupt_eq]
@[simp] theorem enterInterrupt_sp (r : Word) (v : Byte) (w : Word) (s : State) :
    (enterInterrupt r v w s).sp = s.sp - 1 - 1 - 1 := by
  simp [enterInterrupt_eq]
@[simp] theorem enterInterrupt_p (r : Word) (v : Byte) (w : Word) (s : State) :
    (enterInterrupt r v w s).p = withUnused (putFlag .I true s.p) := by
  simp [enterInterrupt_eq]
@[simp] theorem enterInterrupt_cycles (r : Word) (v : Byte) (w : Word) (s : State) :
    (enterInterrupt r v w s).cycles = s.cycles := by
  simp [enterInterrupt_eq]
@[simp] theorem enterInterrupt_fault (r : Word) (v : Byte) (w : Word) (s : State) :
    (enterInterrupt r v w s).fault = s.fault := by
  simp [enterInterrupt_eq]
@[simp] theorem enterInterrupt_created (r : Word) (v : Byte) (w : Word) (s : State) :
    (enterInterrupt r v w s).created = s.created := by
  simp [enterInterrupt_eq]
@[simp] theorem enterInterrupt_ram (r : Word) (v : Byte) (w : Word) (s : State) :
    (enterInterrupt r v w s).ram = (push8 v (push16 r s)).ram := by
  simp [enterInterrupt_eq]

/-- R254, R277: of the flags, interrupt entry sets I alone. -/
@[simp] theorem enterInterrupt_flag (r : Word) (v : Byte) (w : Word) (s : State) (f : Flag) :
    (enterInterrupt r v w s).flag f = if f = .I then true else s.flag f := by
  rw [enterInterrupt_eq, setPC_flag, read16_flag, setFlag_flag]
  cases f <;> simp

/-- R254, R277: what interrupt entry leaves in RAM. -/
theorem peek_enterInterrupt (r : Word) (v : Byte) (w : Word) (s : State) (b : Word) :
    peek (enterInterrupt r v w s) b =
      if b = word16 1 (s.sp - 2) then v
      else if b = word16 1 (s.sp - 1) then r.lo
      else if b = word16 1 s.sp then r.hi
      else peek s b := by
  rw [peek_congr (enterInterrupt_ram r v w s), peek_push8, peek_push16, push16_sp, sub_one_sub_one]

/-- R254, R277: a vector outside the stack page is read as it was before the pushes. -/
theorem enterInterrupt_pc (r : Word) (v : Byte) {w : Word} (s : State) (h : w.hi ≠ 1) (h' : (w + 1).hi ≠ 1) :
    (enterInterrupt r v w s).pc = word16 (s.nthAnswer 1 (w + 1)) (s.nthAnswer 0 w) := by
  have same : ∀ k (a : Word), a.hi ≠ 1 →
      ((push8 v (push16 r s)).setFlag .I true).nthAnswer k a = s.nthAnswer k a := by
    intro k a ha
    have hne : ∀ b, a ≠ word16 1 b := by rintro b rfl; simp at ha
    have hp : peek ((push8 v (push16 r s)).setFlag .I true) a = peek s a := by
      show peek (push8 v (push16 r s)) a = _
      rw [peek_push8, peek_push16]; simp only [hne, if_false]
    rw [nthAnswer_congr (s := s) (t := ((push8 v (push16 r s)).setFlag .I true)) 0 (by simp) hp, Nat.zero_add]
  rw [enterInterrupt_eq]
  simp only [setPC_pc, read16_answer, same _ _ h, same _ _ h']

/-- Return from interrupt as its three pops. -/
theorem returnFromInterrupt_eq (s : State) :
    returnFromInterrupt s =
      (pop16 ((pop8 s).2.setP (pop8 s).1)).2.setPC (pop16 ((pop8 s).2.setP (pop8 s).1)).1 := rfl

/-! ## One byte of RAM after the operations that write none -/

@[simp] theorem peek_setA (s : State) (v : Byte) (a : Word) : peek (s.setA v) a = peek s a := rfl
@[simp] theorem peek_setX (s : State) (v : Byte) (a : Word) : peek (s.setX v) a = peek s a := rfl
@[simp] theorem peek_setY (s : State) (v : Byte) (a : Word) : peek (s.setY v) a = peek s a := rfl
@[simp] theorem peek_setSP (s : State) (v : Byte) (a : Word) : peek (s.setSP v) a = peek s a := rfl
@[simp] theorem peek_setPC (s : State) (v : Word) (a : Word) : peek (s.setPC v) a = peek s a := rfl
@[simp] theorem peek_setP (s : State) (v : Byte) (a : Word) : peek (s.setP v) a = peek s a := rfl
@[simp] theorem peek_setFlag (s : State) (f : Flag) (b : Bool) (a : Word) : peek (s.setFlag f b) a = peek s a := rfl
@[simp] theorem peek_setZN (s : State) (v : Byte) (a : Word) : peek (s.setZN v) a = peek s a := rfl
@[simp] theorem peek_addCycles (s : State) (n : Nat) (a : Word) : peek (s.addCycles n) a = peek s a := rfl
@[simp] theorem peek_read8 (b : Word) (s : State) (a : Word) : peek (read8 b s).2 a = peek s a := rfl
@[simp] theorem peek_read16 (b : Word) (s : State) (a : Word) : peek (read16 b s).2 a = peek s a := rfl
@[simp] theorem peek_pop8 (s : State) (a : Word) : peek (pop8 s).2 a = peek s a := rfl
@[simp] theorem peek_pop16 (s : State) (a : Word) : peek (pop16 s).2 a = peek s a := rfl
@[simp] theorem peek_resolve (o : Operand) (s : State) (a : Word) : peek (resolve o s).state a = peek s a :=
  peek_congr (resolve_ram o s) a
@[simp] theorem peek_afterOperand (i : Instr) (s : State) (a : Word) : peek (afterOperand i s) a = peek s a :=
  peek_congr (afterOperand_ram i s) a

end Sys2Proof.Machine
end

