-- ==== Sys2Proof/Laws/Exec.lean ====
section
/-! SUPPORT. What `exec` can do, said once: every row runs its mnemonic's meaning on its own operand, and each
instruction shape completes with the state written here. -/

namespace Sys2Proof.Machine

/-- The meaning of a mnemonic on an instruction's own operand. -/
def meaningOf (m : Mnemonic) (i : Instr) (s : State) : Host.Outcome State Fault Refusal :=
  match m with
  | .lda => readClass i loadA s
  | .ldx => readClass i loadX s
  | .ldy => readClass i loadY s
  | .sta => writeClass i s.a s
  | .stx => writeClass i s.x s
  | .sty => writeClass i s.y s
  | .tax => impliedClass i (fun s => (s.setX s.a).setZN s.a) s
  | .tay => impliedClass i (fun s => (s.setY s.a).setZN s.a) s
  | .txa => impliedClass i (fun s => (s.setA s.x).setZN s.x) s
  | .tya => impliedClass i (fun s => (s.setA s.y).setZN s.y) s
  | .tsx => impliedClass i (fun s => (s.setX s.sp).setZN s.sp) s
  | .txs => impliedClass i (fun s => s.setSP s.x) s
  | .adc => arithmetic Config.hardware i addToA s
  | .sbc => arithmetic Config.hardware i subFromA s
  | .and => readClass i (logicA aluAnd) s
  | .ora => readClass i (logicA aluOr) s
  | .eor => readClass i (logicA aluXor) s
  | .asl => shiftClass i aluAsl s
  | .lsr => shiftClass i aluLsr s
  | .rol => shiftClass i aluRol s
  | .ror => shiftClass i aluRor s
  | .inc => incDecClass i aluInc s
  | .dec => incDecClass i aluDec s
  | .inx => impliedClass i (fun s => (s.setX (aluInc s.x)).setZN (aluInc s.x)) s
  | .iny => impliedClass i (fun s => (s.setY (aluInc s.y)).setZN (aluInc s.y)) s
  | .dex => impliedClass i (fun s => (s.setX (aluDec s.x)).setZN (aluDec s.x)) s
  | .dey => impliedClass i (fun s => (s.setY (aluDec s.y)).setZN (aluDec s.y)) s
  | .cmp => readClass i (compareWith s.a) s
  | .cpx => readClass i (compareWith s.x) s
  | .cpy => readClass i (compareWith s.y) s
  | .bit => readClass i bitTest s
  | .bcc => branchClass i (!s.flag .C) s
  | .bcs => branchClass i (s.flag .C) s
  | .beq => branchClass i (s.flag .Z) s
  | .bne => branchClass i (!s.flag .Z) s
  | .bmi => branchClass i (s.flag .N) s
  | .bpl => branchClass i (!s.flag .N) s
  | .bvc => branchClass i (!s.flag .V) s
  | .bvs => branchClass i (s.flag .V) s
  | .clc => impliedClass i (fun s => s.setFlag .C false) s
  | .cld => impliedClass i (fun s => s.setFlag .D false) s
  | .cli => impliedClass i (fun s => s.setFlag .I false) s
  | .clv => impliedClass i (fun s => s.setFlag .V false) s
  | .sec => impliedClass i (fun s => s.setFlag .C true) s
  | .sed => impliedClass i (fun s => s.setFlag .D true) s
  | .sei => impliedClass i (fun s => s.setFlag .I true) s
  | .pha => impliedClass i pushA s
  | .pla => impliedClass i pullA s
  | .php => impliedClass i pushP s
  | .plp => impliedClass i pullP s
  | .jmp => jumpClass i jumpTo s
  | .jsr => jumpClass i callTo s
  | .rts => impliedClass i returnFromSubroutine s
  | .brk => impliedClass i (softwareInterrupt Config.hardware) s
  | .rti => impliedClass i returnFromInterrupt s
  | .nop => impliedClass i id s

/-- Every row of a mnemonic has that mnemonic's meaning. -/
theorem exec_eq_meaningOf (i : Instr) (s : State) : exec i s = meaningOf i.mnemonic i s := by
  cases i <;> rfl

theorem exec_of_mnemonic {i : Instr} {m : Mnemonic} (h : i.mnemonic = m) (s : State) : exec i s = meaningOf m i s := by
  rw [exec_eq_meaningOf, h]

/-! ## Each shape completes -/

theorem readClass_eq (i : Instr) (f : Byte → State → State) (s : State) :
    readClass i f s = .next ((f (operandOf i s) (afterOperand i s)).addCycles (costOf i s)) := rfl

theorem arithmetic_hardware (i : Instr) (f : Byte → State → State) (s : State) :
    arithmetic Config.hardware i f s = readClass i f s := by simp [arithmetic]

theorem writeClass_eq (i : Instr) (v : Byte) (s : State) :
    writeClass i v s = .next ((storeOperand (resolve i.operand s).ea v (resolve i.operand s).state).addCycles (costOf i s)) :=
  rfl

theorem shiftClass_eq (i : Instr) (alu : Byte → Bool → Byte × Bool) (s : State) :
    shiftClass i alu s = .next ((((storeOperand (resolve i.operand s).ea (alu (operandOf i s) (s.flag .C)).1
      (afterOperand i s)).setFlag .C (alu (operandOf i s) (s.flag .C)).2).setZN
        (alu (operandOf i s) (s.flag .C)).1).addCycles (costOf i s)) := by
  rw [← afterOperand_flag i s .C]; rfl

theorem incDecClass_eq (i : Instr) (alu : Byte → Byte) (s : State) :
    incDecClass i alu s = .next (((storeOperand (resolve i.operand s).ea (alu (operandOf i s))
      (afterOperand i s)).setZN (alu (operandOf i s))).addCycles (costOf i s)) := rfl

theorem impliedClass_eq (i : Instr) (f : State → State) (s : State) :
    impliedClass i f s = .next ((f s).addCycles (i.baseCycles + 0)) := rfl

theorem branchClass_eq (i : Instr) (cond : Bool) (s : State) :
    branchClass i cond s = .next ((if cond then (resolve i.operand s).state.setPC (effAddr i s)
      else (resolve i.operand s).state).addCycles (i.baseCycles + branchExtra cond s.pc (effAddr i s))) := rfl

theorem jumpClass_eq (i : Instr) (f : Word → State → State) (s : State) :
    jumpClass i f s = .next ((f (effAddr i s) (resolve i.operand s).state).addCycles (i.baseCycles + 0)) := rfl

/-- Every instruction of this hardware completes in every state. -/
theorem exec_next (i : Instr) (s : State) : ∃ t, exec i s = .next t := by
  rw [exec_eq_meaningOf]
  generalize i.mnemonic = m
  cases m <;> simp only [meaningOf, arithmetic_hardware, readClass_eq, writeClass_eq, shiftClass_eq, incDecClass_eq,
    impliedClass_eq, branchClass_eq, jumpClass_eq] <;> exact ⟨_, rfl⟩

/-! ## The flag updates of the meanings, flag by flag -/

@[simp] theorem addToA_eq (m : Byte) (s : State) :
    addToA m s = (((s.setA (aluAdd s.a m (s.flag .C)).1).setFlag .C (aluAdd s.a m (s.flag .C)).2.1).setFlag .V
      (aluAdd s.a m (s.flag .C)).2.2).setZN (aluAdd s.a m (s.flag .C)).1 := rfl

@[simp] theorem compareWith_eq (reg m : Byte) (s : State) :
    compareWith reg m s = (s.setFlag .C (aluCmp reg m).2).setZN (aluCmp reg m).1 := rfl

@[simp] theorem pullA_eq (s : State) : pullA s = ((pop8 s).2.setA (pop8 s).1).setZN (pop8 s).1 := rfl

@[simp] theorem pullP_eq (s : State) : pullP s = (pop8 s).2.setP (((pop8 s).1 &&& ~~~0x10#8) ||| 0x20) := rfl

@[simp] theorem returnFromSubroutine_eq (s : State) :
    returnFromSubroutine s = (pop16 s).2.setPC ((pop16 s).1 + 1) := rfl

/-! ## The modes that have an effective address -/

/-- Every mode but Accumulator and Implied has the effective address `effAddr`. -/
theorem resolve_ea (o : Operand) (s : State) :
    (resolve o s).ea = if o.mode = .acc ∨ o.mode = .impl then none else some (resolve o s).target := by
  cases o <;> rfl

/-- R123: outside Immediate, Accumulator and Implied, the operand value is one read at the effective address. -/
theorem loadOperand_mem {o : Operand} (h : o.mode ≠ .imm) (ha : o.mode ≠ .acc) (hi : o.mode ≠ .impl) (s : State) :
    loadOperand o (resolve o s) = read8 (resolve o s).target (resolve o s).state := by
  revert h ha hi
  cases o <;> first | (intros; rfl) | (intro h ha hi; exact absurd rfl h) | (intro h ha hi; exact absurd rfl ha) |
    (intro h ha hi; exact absurd rfl hi)

theorem operandOf_mem {i : Instr} (h : i.mode ≠ .imm) (ha : i.mode ≠ .acc) (hi : i.mode ≠ .impl) (s : State) :
    operandOf i s = (resolve i.operand s).state.busAnswer (effAddr i s) := by
  rw [operandOf, loadOperand_mem h ha hi]; rfl

theorem afterOperand_mem {i : Instr} (h : i.mode ≠ .imm) (ha : i.mode ≠ .acc) (hi : i.mode ≠ .impl) (s : State) :
    afterOperand i s = (read8 (effAddr i s) (resolve i.operand s).state).2 := by
  rw [afterOperand, loadOperand_mem h ha hi]; rfl

/-- A result put back at the effective address. -/
theorem storeOperand_mem {i : Instr} (h : i.mode ≠ .acc) (h' : i.mode ≠ .impl) (v : Byte) (s t : State) :
    storeOperand (resolve i.operand s).ea v t = write8 (effAddr i s) v t := by
  have : ¬ (i.operand.mode = .acc ∨ i.operand.mode = .impl) := by simp_all [Instr.mode]
  rw [resolve_ea, if_neg this]; rfl

/-- A result put back into A. -/
theorem storeOperand_acc {i : Instr} (h : i.mode = .acc) (v : Byte) (s t : State) :
    storeOperand (resolve i.operand s).ea v t = t.setA v := by
  have : i.operand.mode = .acc ∨ i.operand.mode = .impl := .inl h
  rw [resolve_ea, if_pos this]; rfl

/-! ## What every instruction can do, said once -/

/-- RAM after an instruction: as it was, or with one byte stored at the effective address, or with the stack writes of
a push, a call or BRK. -/
theorem exec_ram {i : Instr} {s t : State} (h : exec i s = .next t) :
    t.ram = s.ram ∨
    ((i.operandClass = .write ∨ i.operandClass = .rmw) ∧ ∃ v, t.ram = (write8 (effAddr i s) v s).ram) ∨
    (i.mnemonic ∈ [Mnemonic.pha, .php] ∧ ∃ v, t.ram = (push8 v s).ram) ∨
    (i.mnemonic = .jsr ∧ ∃ w, t.ram = (push16 w s).ram) ∨
    (i.mnemonic = .brk ∧ ∃ v w, t.ram = (push8 v (push16 w s)).ram) := by
  have store : ∀ (v : Byte) (u : State), u.ram = s.ram → i.mode ≠ .impl →
      (storeOperand (resolve i.operand s).ea v u).ram = s.ram ∨
      (i.mode ≠ .acc ∧ (storeOperand (resolve i.operand s).ea v u).ram = (write8 (effAddr i s) v s).ram) := by
    intro v u hu hi
    by_cases ha : i.mode = .acc
    · exact .inl (by rw [storeOperand_acc ha]; exact hu)
    · exact .inr ⟨ha, by rw [storeOperand_mem ha hi, write8_ram, hu]; rfl⟩
  have himpl : ∀ m ∈ [Mnemonic.sta, .stx, .sty, .asl, .lsr, .rol, .ror, .inc, .dec], i.mnemonic = m → i.mode ≠ .impl := by
    intro m hm he hi
    have table : ∀ m ∈ [Mnemonic.sta, .stx, .sty, .asl, .lsr, .rol, .ror, .inc, .dec], Mode.impl ∉ legalModes m := by
      decide
    have := mode_legal i
    rw [he, hi] at this
    exact table m hm this
  have hclass : i.mode ≠ .acc → ∀ m ∈ [Mnemonic.sta, .stx, .sty, .asl, .lsr, .rol, .ror, .inc, .dec], i.mnemonic = m →
      i.operandClass = .write ∨ i.operandClass = .rmw := by
    intro ha m hm he
    unfold Instr.operandClass
    rw [he]; revert hm; cases m <;> simp [Mnemonic.operandClass, ha]
  rw [exec_eq_meaningOf] at h
  generalize hm : i.mnemonic = m at h
  cases m
  case sta | stx | sty =>
    simp only [meaningOf, writeClass_eq] at h; cases h
    simp only [addCycles_ram]
    rcases store _ _ (resolve_ram i.operand s) (himpl _ (by decide) hm) with hr | ⟨ha, hr⟩
    · exact .inl hr
    · exact .inr (.inl ⟨hclass ha _ (by decide) hm, _, hr⟩)
  case asl | lsr | rol | ror | inc | dec =>
    simp only [meaningOf, shiftClass_eq, incDecClass_eq] at h; cases h
    simp only [addCycles_ram, setZN_ram, setFlag_ram]
    rcases store _ _ (afterOperand_ram i s) (himpl _ (by decide) hm) with hr | ⟨ha, hr⟩
    · exact .inl hr
    · exact .inr (.inl ⟨hclass ha _ (by decide) hm, _, hr⟩)
  case pha | php =>
    simp only [meaningOf, impliedClass_eq] at h; cases h
    refine .inr (.inr (.inl ⟨by decide, ?_⟩))
    simp only [pushA, pushP, addCycles_ram]
    exact ⟨_, rfl⟩
  case jsr =>
    simp only [meaningOf, jumpClass_eq] at h; cases h
    exact .inr (.inr (.inr (.inl ⟨rfl, s.pc - 1, by simp [callTo, push16]⟩)))
  case brk =>
    simp only [meaningOf, impliedClass_eq] at h; cases h
    exact .inr (.inr (.inr (.inr ⟨rfl, pushedByBreak s.status, s.pc - 1 + 2, by simp [softwareInterrupt]⟩)))
  all_goals left
  all_goals simp only [meaningOf, arithmetic_hardware, readClass_eq, impliedClass_eq, branchClass_eq, jumpClass_eq] at h
  all_goals cases h
  all_goals try split
  all_goals simp [loadA, loadX, loadY, subFromA, logicA, bitTest, returnFromInterrupt_eq, jumpTo]

/-- P after an instruction: as it was, or written through R24. -/
theorem exec_p {i : Instr} {s t : State} (h : exec i s = .next t) : t.p = s.p ∨ ∃ v, t.p = withUnused v := by
  rw [exec_eq_meaningOf] at h
  generalize i.mnemonic = m at h
  cases m
  case sta | stx | sty | txs | pha | php | jmp | jsr | rts | nop | bcc | bcs | beq | bne | bmi | bpl | bvc | bvs =>
    simp only [meaningOf, writeClass_eq, impliedClass_eq, branchClass_eq, jumpClass_eq] at h; cases h
    left
    try split
    all_goals simp [jumpTo, callTo, pushA, pushP]
  all_goals right
  all_goals simp only [meaningOf, arithmetic_hardware, readClass_eq, shiftClass_eq, incDecClass_eq, impliedClass_eq] at h
  all_goals cases h
  all_goals simp [loadA, loadX, loadY, subFromA, logicA, bitTest, softwareInterrupt, returnFromInterrupt_eq, setZN_p]

/-- The reset and fault state is no instruction's to change. -/
theorem exec_latch {i : Instr} {s t : State} (h : exec i s = .next t) : SameLatch s t := by
  unfold SameLatch
  rw [exec_eq_meaningOf] at h
  generalize i.mnemonic = m at h
  cases m
  all_goals simp only [meaningOf, arithmetic_hardware, readClass_eq, writeClass_eq, shiftClass_eq, incDecClass_eq,
    impliedClass_eq, branchClass_eq, jumpClass_eq] at h
  all_goals cases h
  all_goals try split
  all_goals simp [loadA, loadX, loadY, subFromA, logicA, bitTest, softwareInterrupt, returnFromInterrupt_eq, jumpTo,
    callTo, pushA, pushP]

/-- The cost of an instruction: its base count with its page-cross penalty, or with a branch's extras. -/
theorem exec_cycles {i : Instr} {s t : State} (h : exec i s = .next t) :
    t.cycles = s.cycles + costOf i s ∨
    t.cycles = s.cycles + i.baseCycles ∨
    (i.operandClass = .branch ∧ ∃ taken, t.cycles = s.cycles + (i.baseCycles + branchExtra taken s.pc (effAddr i s))) := by
  rw [exec_eq_meaningOf] at h
  generalize hm : i.mnemonic = m at h
  cases m
  case bcc | bcs | beq | bne | bmi | bpl | bvc | bvs =>
    simp only [meaningOf, branchClass_eq] at h; cases h
    refine .inr (.inr ⟨by unfold Instr.operandClass; rw [hm]; rfl, ?_⟩)
    split <;> exact ⟨_, by simp; rfl⟩
  case tax | tay | txa | tya | tsx | txs | inx | iny | dex | dey | clc | cld | cli | clv | sec | sed | sei | pha | pla
      | php | plp | jmp | jsr | rts | brk | rti | nop =>
    simp only [meaningOf, impliedClass_eq, jumpClass_eq] at h; cases h
    right; left
    simp [softwareInterrupt, returnFromInterrupt_eq, jumpTo, callTo, pushA, pushP]
  all_goals left
  all_goals simp only [meaningOf, arithmetic_hardware, readClass_eq, writeClass_eq, shiftClass_eq, incDecClass_eq] at h
  all_goals cases h
  all_goals simp [loadA, loadX, loadY, subFromA, logicA, bitTest]

end Sys2Proof.Machine
end

