-- ==== Sys2Proof/Laws/PerInstr.lean ====
section
/-! SUPPORT. One statement about every instruction as syntax, and one lemma per constructor. -/

namespace Sys2Proof.Laws.Encoding

/-- R70, R74, R130: the instruction is well formed, is found from its form, has the table's row for its opcode, and
encodes to as many bytes as its length. -/
def Statement (i : Instr) : Prop :=
  i.WellFormed ∧ Instr.ofForm i.mnemonic i.operand = some i ∧
  lookup i.opcode = some ⟨i.opcode, i.mnemonic, i.mode, i.baseCycles⟩ ∧ (encode i).length = i.length

theorem statement (i : Instr) : Statement i := ⟨wellFormed i, ofForm_form i, lookup_opcode i, encode_length i⟩

theorem ldaImm (b : Byte) : Statement (.ldaImm b) := statement _
theorem ldaZp (b : Byte) : Statement (.ldaZp b) := statement _
theorem ldaZpX (b : Byte) : Statement (.ldaZpX b) := statement _
theorem ldaAbs (w : Word) : Statement (.ldaAbs w) := statement _
theorem ldaAbsX (w : Word) : Statement (.ldaAbsX w) := statement _
theorem ldaAbsY (w : Word) : Statement (.ldaAbsY w) := statement _
theorem ldaIndX (b : Byte) : Statement (.ldaIndX b) := statement _
theorem ldaIndY (b : Byte) : Statement (.ldaIndY b) := statement _
theorem ldxImm (b : Byte) : Statement (.ldxImm b) := statement _
theorem ldxZp (b : Byte) : Statement (.ldxZp b) := statement _
theorem ldxZpY (b : Byte) : Statement (.ldxZpY b) := statement _
theorem ldxAbs (w : Word) : Statement (.ldxAbs w) := statement _
theorem ldxAbsY (w : Word) : Statement (.ldxAbsY w) := statement _
theorem ldyImm (b : Byte) : Statement (.ldyImm b) := statement _
theorem ldyZp (b : Byte) : Statement (.ldyZp b) := statement _
theorem ldyZpX (b : Byte) : Statement (.ldyZpX b) := statement _
theorem ldyAbs (w : Word) : Statement (.ldyAbs w) := statement _
theorem ldyAbsX (w : Word) : Statement (.ldyAbsX w) := statement _
theorem staZp (b : Byte) : Statement (.staZp b) := statement _
theorem staZpX (b : Byte) : Statement (.staZpX b) := statement _
theorem staAbs (w : Word) : Statement (.staAbs w) := statement _
theorem staAbsX (w : Word) : Statement (.staAbsX w) := statement _
theorem staAbsY (w : Word) : Statement (.staAbsY w) := statement _
theorem staIndX (b : Byte) : Statement (.staIndX b) := statement _
theorem staIndY (b : Byte) : Statement (.staIndY b) := statement _
theorem stxZp (b : Byte) : Statement (.stxZp b) := statement _
theorem stxZpY (b : Byte) : Statement (.stxZpY b) := statement _
theorem stxAbs (w : Word) : Statement (.stxAbs w) := statement _
theorem styZp (b : Byte) : Statement (.styZp b) := statement _
theorem styZpX (b : Byte) : Statement (.styZpX b) := statement _
theorem styAbs (w : Word) : Statement (.styAbs w) := statement _
theorem tax : Statement .tax := statement _
theorem tay : Statement .tay := statement _
theorem txa : Statement .txa := statement _
theorem tya : Statement .tya := statement _
theorem tsx : Statement .tsx := statement _
theorem txs : Statement .txs := statement _
theorem adcImm (b : Byte) : Statement (.adcImm b) := statement _
theorem adcZp (b : Byte) : Statement (.adcZp b) := statement _
theorem adcZpX (b : Byte) : Statement (.adcZpX b) := statement _
theorem adcAbs (w : Word) : Statement (.adcAbs w) := statement _
theorem adcAbsX (w : Word) : Statement (.adcAbsX w) := statement _
theorem adcAbsY (w : Word) : Statement (.adcAbsY w) := statement _
theorem adcIndX (b : Byte) : Statement (.adcIndX b) := statement _
theorem adcIndY (b : Byte) : Statement (.adcIndY b) := statement _
theorem sbcImm (b : Byte) : Statement (.sbcImm b) := statement _
theorem sbcZp (b : Byte) : Statement (.sbcZp b) := statement _
theorem sbcZpX (b : Byte) : Statement (.sbcZpX b) := statement _
theorem sbcAbs (w : Word) : Statement (.sbcAbs w) := statement _
theorem sbcAbsX (w : Word) : Statement (.sbcAbsX w) := statement _
theorem sbcAbsY (w : Word) : Statement (.sbcAbsY w) := statement _
theorem sbcIndX (b : Byte) : Statement (.sbcIndX b) := statement _
theorem sbcIndY (b : Byte) : Statement (.sbcIndY b) := statement _
theorem andImm (b : Byte) : Statement (.andImm b) := statement _
theorem andZp (b : Byte) : Statement (.andZp b) := statement _
theorem andZpX (b : Byte) : Statement (.andZpX b) := statement _
theorem andAbs (w : Word) : Statement (.andAbs w) := statement _
theorem andAbsX (w : Word) : Statement (.andAbsX w) := statement _
theorem andAbsY (w : Word) : Statement (.andAbsY w) := statement _
theorem andIndX (b : Byte) : Statement (.andIndX b) := statement _
theorem andIndY (b : Byte) : Statement (.andIndY b) := statement _
theorem oraImm (b : Byte) : Statement (.oraImm b) := statement _
theorem oraZp (b : Byte) : Statement (.oraZp b) := statement _
theorem oraZpX (b : Byte) : Statement (.oraZpX b) := statement _
theorem oraAbs (w : Word) : Statement (.oraAbs w) := statement _
theorem oraAbsX (w : Word) : Statement (.oraAbsX w) := statement _
theorem oraAbsY (w : Word) : Statement (.oraAbsY w) := statement _
theorem oraIndX (b : Byte) : Statement (.oraIndX b) := statement _
theorem oraIndY (b : Byte) : Statement (.oraIndY b) := statement _
theorem eorImm (b : Byte) : Statement (.eorImm b) := statement _
theorem eorZp (b : Byte) : Statement (.eorZp b) := statement _
theorem eorZpX (b : Byte) : Statement (.eorZpX b) := statement _
theorem eorAbs (w : Word) : Statement (.eorAbs w) := statement _
theorem eorAbsX (w : Word) : Statement (.eorAbsX w) := statement _
theorem eorAbsY (w : Word) : Statement (.eorAbsY w) := statement _
theorem eorIndX (b : Byte) : Statement (.eorIndX b) := statement _
theorem eorIndY (b : Byte) : Statement (.eorIndY b) := statement _
theorem aslAcc : Statement .aslAcc := statement _
theorem aslZp (b : Byte) : Statement (.aslZp b) := statement _
theorem aslZpX (b : Byte) : Statement (.aslZpX b) := statement _
theorem aslAbs (w : Word) : Statement (.aslAbs w) := statement _
theorem aslAbsX (w : Word) : Statement (.aslAbsX w) := statement _
theorem lsrAcc : Statement .lsrAcc := statement _
theorem lsrZp (b : Byte) : Statement (.lsrZp b) := statement _
theorem lsrZpX (b : Byte) : Statement (.lsrZpX b) := statement _
theorem lsrAbs (w : Word) : Statement (.lsrAbs w) := statement _
theorem lsrAbsX (w : Word) : Statement (.lsrAbsX w) := statement _
theorem rolAcc : Statement .rolAcc := statement _
theorem rolZp (b : Byte) : Statement (.rolZp b) := statement _
theorem rolZpX (b : Byte) : Statement (.rolZpX b) := statement _
theorem rolAbs (w : Word) : Statement (.rolAbs w) := statement _
theorem rolAbsX (w : Word) : Statement (.rolAbsX w) := statement _
theorem rorAcc : Statement .rorAcc := statement _
theorem rorZp (b : Byte) : Statement (.rorZp b) := statement _
theorem rorZpX (b : Byte) : Statement (.rorZpX b) := statement _
theorem rorAbs (w : Word) : Statement (.rorAbs w) := statement _
theorem rorAbsX (w : Word) : Statement (.rorAbsX w) := statement _
theorem incZp (b : Byte) : Statement (.incZp b) := statement _
theorem incZpX (b : Byte) : Statement (.incZpX b) := statement _
theorem incAbs (w : Word) : Statement (.incAbs w) := statement _
theorem incAbsX (w : Word) : Statement (.incAbsX w) := statement _
theorem decZp (b : Byte) : Statement (.decZp b) := statement _
theorem decZpX (b : Byte) : Statement (.decZpX b) := statement _
theorem decAbs (w : Word) : Statement (.decAbs w) := statement _
theorem decAbsX (w : Word) : Statement (.decAbsX w) := statement _
theorem inx : Statement .inx := statement _
theorem iny : Statement .iny := statement _
theorem dex : Statement .dex := statement _
theorem dey : Statement .dey := statement _
theorem cmpImm (b : Byte) : Statement (.cmpImm b) := statement _
theorem cmpZp (b : Byte) : Statement (.cmpZp b) := statement _
theorem cmpZpX (b : Byte) : Statement (.cmpZpX b) := statement _
theorem cmpAbs (w : Word) : Statement (.cmpAbs w) := statement _
theorem cmpAbsX (w : Word) : Statement (.cmpAbsX w) := statement _
theorem cmpAbsY (w : Word) : Statement (.cmpAbsY w) := statement _
theorem cmpIndX (b : Byte) : Statement (.cmpIndX b) := statement _
theorem cmpIndY (b : Byte) : Statement (.cmpIndY b) := statement _
theorem cpxImm (b : Byte) : Statement (.cpxImm b) := statement _
theorem cpxZp (b : Byte) : Statement (.cpxZp b) := statement _
theorem cpxAbs (w : Word) : Statement (.cpxAbs w) := statement _
theorem cpyImm (b : Byte) : Statement (.cpyImm b) := statement _
theorem cpyZp (b : Byte) : Statement (.cpyZp b) := statement _
theorem cpyAbs (w : Word) : Statement (.cpyAbs w) := statement _
theorem bitZp (b : Byte) : Statement (.bitZp b) := statement _
theorem bitAbs (w : Word) : Statement (.bitAbs w) := statement _
theorem bcc (b : Byte) : Statement (.bcc b) := statement _
theorem bcs (b : Byte) : Statement (.bcs b) := statement _
theorem beq (b : Byte) : Statement (.beq b) := statement _
theorem bne (b : Byte) : Statement (.bne b) := statement _
theorem bmi (b : Byte) : Statement (.bmi b) := statement _
theorem bpl (b : Byte) : Statement (.bpl b) := statement _
theorem bvc (b : Byte) : Statement (.bvc b) := statement _
theorem bvs (b : Byte) : Statement (.bvs b) := statement _
theorem clc : Statement .clc := statement _
theorem cld : Statement .cld := statement _
theorem cli : Statement .cli := statement _
theorem clv : Statement .clv := statement _
theorem sec : Statement .sec := statement _
theorem sed : Statement .sed := statement _
theorem sei : Statement .sei := statement _
theorem pha : Statement .pha := statement _
theorem pla : Statement .pla := statement _
theorem php : Statement .php := statement _
theorem plp : Statement .plp := statement _
theorem jmpAbs (w : Word) : Statement (.jmpAbs w) := statement _
theorem jmpInd (w : Word) : Statement (.jmpInd w) := statement _
theorem jsr (w : Word) : Statement (.jsr w) := statement _
theorem rts : Statement .rts := statement _
theorem brk : Statement .brk := statement _
theorem rti : Statement .rti := statement _
theorem nop : Statement .nop := statement _

end Sys2Proof.Laws.Encoding
end

