-- ==== Sys2Proof/Laws/Step.lean ====
section
/-! SUPPORT. What one call of `step()` can do, said once: refused, the latched fault again, an unassigned byte latched,
or one instruction's meaning run after its bytes are fetched. -/

namespace Sys2Proof.Machine

/-! ## The fetch -/

@[simp] theorem fetchByte_value (s : State) : (fetchByte s).1 = s.busAnswer s.pc := rfl

theorem fetchByte_state (s : State) :
    (fetchByte s).2 = { s with
      pc := s.pc + 1, answers := s.answers.drop 1, log := .read s.pc (s.busAnswer s.pc) :: s.log } := by
  simp [fetchByte, read8, State.setPC, List.drop_one]

/-- The bytes fetched, and the state after them: PC past them, their reads made, nothing else changed. -/
theorem fetchBytes_eq (n : Nat) (s : State) :
    fetchBytes n s = ((List.range n).map (fun k => s.nthAnswer k (s.pc + BitVec.ofNat 16 k)),
      { s with
        pc := s.pc + BitVec.ofNat 16 n
        answers := s.answers.drop n
        log := ((List.range n).map (fun k =>
          Access.read (s.pc + BitVec.ofNat 16 k) (s.nthAnswer k (s.pc + BitVec.ofNat 16 k)))).reverse ++ s.log }) := by
  induction n generalizing s with
  | zero => simp [fetchBytes]
  | succ n ih =>
    have hpc : ∀ k : Nat, s.pc + 1 + BitVec.ofNat 16 k = s.pc + BitVec.ofNat 16 (k + 1) := fun k => by
      rw [BitVec.add_assoc, show (1 : Word) = BitVec.ofNat 16 1 from rfl, ← BitVec.ofNat_add, Nat.add_comm]
    have hans : ∀ (k : Nat) (a : Word), (fetchByte s).2.nthAnswer k a = s.nthAnswer (k + 1) a := fun k a => by
      rw [nthAnswer_congr (s := s) 1 (by rw [fetchByte_state]) (by rw [fetchByte_state]; rfl), Nat.add_comm]
    have hp : (fetchByte s).2.pc = s.pc + 1 := rfl
    unfold fetchBytes
    rw [ih]
    simp only [hans, hp, hpc, List.range_succ_eq_map, List.map_cons, List.map_map, Function.comp_def, List.reverse_cons]
    simp [fetchByte_state, busAnswer_eq_nthAnswer]

/-- The operand of a mode is taken from the bytes fetched. -/
theorem fetchOperand_eq (m : Mode) (s : State) :
    m.takeOperand (fetchBytes m.operandBytes s).1 = some ((fetchOperand m s).1, []) ∧
    (fetchOperand m s).2 = (fetchBytes m.operandBytes s).2 := by
  cases m <;> exact ⟨rfl, rfl⟩

/-! ## Cases of a step -/

theorem stepCall_live {s : State} (h : s.Live) : stepCall s = fetchAndRun s := by
  simp [stepCall, h.1, h.2]

theorem stepCall_halted {s : State} {r : UnknownOpcode} (h : s.created = true) (hf : s.fault = some r) :
    stepCall s = .halted s (.unknownOpcode r) := by
  simp [stepCall, h, hf]

theorem stepCall_notCreated {s : State} (h : s.created = false) : stepCall s = .refused .beforeReset := by
  simp [stepCall, h]

/-- An instruction's run always completes, and its cost is what it added to the counter. -/
theorem runInstr_eq {i : Instr} {s t : State} (h : exec i s = .next t) : runInstr i s = .ok t (t.cycles - s.cycles) := by
  simp [runInstr, h]

theorem fetchOperand_mode (m : Mode) (s : State) : (fetchOperand m s).1.mode = m := by cases m <;> rfl

/-- Everything a step of a live core can do: an unassigned byte is latched, or the instruction whose encoding the bytes
at PC are is run after them. -/
theorem fetchAndRun_cases (s : State) :
    (lookup (s.busAnswer s.pc) = none ∧
      fetchAndRun s = .halted ((fetchByte s).2.latch ⟨s.busAnswer s.pc, s.pc⟩)
        (.unknownOpcode ⟨s.busAnswer s.pc, s.pc⟩)) ∨
    (∃ i, (fetchBytes i.length s).1 = encode i ∧ fetchAndRun s = runInstr i (fetchBytes i.length s).2) := by
  cases hl : lookup (s.busAnswer s.pc) with
  | none => exact .inl ⟨rfl, by unfold fetchAndRun; simp only [fetchByte_value, hl]⟩
  | some r =>
    refine .inr ?_
    obtain ⟨i, hi⟩ := ofForm_lookup hl (fetchOperand r.mode (fetchByte s).2).1 (fetchOperand_mode _ _)
    have ⟨hm, ho⟩ := ofForm_some hi
    have hmode : i.mode = r.mode := by rw [Instr.mode, ho, fetchOperand_mode]
    have ⟨htake, hst⟩ := fetchOperand_eq r.mode (fetchByte s).2
    have hop : i.opcode = s.busAnswer s.pc := by
      rw [Instr.opcode, hm, hmode, (lookup_row hl).2.1]; exact (lookup_row hl).1
    refine ⟨i, ?_, ?_⟩
    · have hb := (takeOperand_some htake).2
      rw [Instr.length, hmode, Nat.add_comm, fetchBytes, encode, hop, ho, hb]
      simp
    · unfold fetchAndRun
      simp only [fetchByte_value, hl, hi]
      rw [Instr.length, hmode, Nat.add_comm, fetchBytes, hst]

end Sys2Proof.Machine
end

