-- ==== Sys2Proof/Laws/Reset.lean ====
section
/-! SUPPORT. `reset()`: it gives State.reset on a bus that lists no byte, and keeps memory. -/

namespace Sys2Proof.Machine

/-- The state of a core that does not exist yet, on a bus that lists no byte. -/
def State.beforeReset : State :=
  { State.reset with created := false, log := [] }

/-- R300 to R305: the first `reset()` on a zeroed bus gives State.reset. -/
theorem resetCall_gives_reset : resetCall State.beforeReset = State.reset := by decide

/-- A later `reset()` gives it again, but for the transactions made. -/
theorem resetCall_reset_log : resetCall State.reset =
    { State.reset with log := State.reset.log ++ State.reset.log } := by decide

theorem reset_ram_wf : Memory.wf State.reset.ram := by decide

@[simp] theorem resetCall_ram (s : State) : (resetCall s).ram = s.ram := rfl
@[simp] theorem resetCall_answers (s : State) : (resetCall s).answers = s.answers.tail.tail := rfl
@[simp] theorem resetCall_pc (s : State) : (resetCall s).pc = (read16 resetVector s).1 := rfl
@[simp] theorem resetCall_log (s : State) : (resetCall s).log = (read16 resetVector s).2.log := rfl
@[simp] theorem resetCall_p (s : State) : (resetCall s).p = 0x24 := rfl
@[simp] theorem resetCall_sp (s : State) : (resetCall s).sp = 0xFD := rfl
@[simp] theorem resetCall_fault (s : State) : (resetCall s).fault = none := rfl
@[simp] theorem resetCall_created (s : State) : (resetCall s).created = true := rfl

end Sys2Proof.Machine
end

