-- ==== Sys2Proof/Tests/Slice0.lean ====
section
/-! SUPPORT. Tests with results from spec/95_test_vectors.md (the vector's name stands before each) or worked out by hand
from the rule named, and a witness for the hypotheses of every statement of Obligations.lean. -/

namespace Sys2Proof.Tests

open Sys2Proof.Machine

/-! ## Well-formedness: the check refuses a form with no row in R74 -/

/-- One ill-formed form for every mode. -/
theorem test_ill_formed_refused :
    ¬ (Form.mk .lda .acc).WellFormed ∧ ¬ (Form.mk .asl .impl).WellFormed ∧ ¬ (Form.mk .sta (.imm 5)).WellFormed ∧
    ¬ (Form.mk .jmp (.zp 5)).WellFormed ∧ ¬ (Form.mk .ldx (.zpX 5)).WellFormed ∧ ¬ (Form.mk .lda (.zpY 5)).WellFormed ∧
    ¬ (Form.mk .bcc (.abs 5)).WellFormed ∧ ¬ (Form.mk .sty (.absX 5)).WellFormed ∧
    ¬ (Form.mk .inc (.absY 5)).WellFormed ∧ ¬ (Form.mk .jsr (.ind 5)).WellFormed ∧
    ¬ (Form.mk .stx (.indX 5)).WellFormed ∧ ¬ (Form.mk .bit (.indY 5)).WellFormed ∧
    ¬ (Form.mk .nop (.rel 5)).WellFormed := by decide

/-- The forms of one row for every mode are accepted. -/
theorem test_well_formed_accepted :
    (Form.mk .asl .acc).WellFormed ∧ (Form.mk .nop .impl).WellFormed ∧ (Form.mk .lda (.imm 5)).WellFormed ∧
    (Form.mk .sta (.zp 5)).WellFormed ∧ (Form.mk .lda (.zpX 5)).WellFormed ∧ (Form.mk .ldx (.zpY 5)).WellFormed ∧
    (Form.mk .jsr (.abs 5)).WellFormed ∧ (Form.mk .lda (.absX 5)).WellFormed ∧ (Form.mk .ldx (.absY 5)).WellFormed ∧
    (Form.mk .jmp (.ind 5)).WellFormed ∧ (Form.mk .sta (.indX 5)).WellFormed ∧ (Form.mk .sta (.indY 5)).WellFormed ∧
    (Form.mk .bcc (.rel 5)).WellFormed := by decide

/-- R74: 151 rows in all. -/
theorem test_legal_forms_count : (allMnemonics.map (fun m => (legalModes m).length)).sum = 151 := by decide

/-! ## Decoding: every row's byte, written out from R74, with its operand bytes (R72) -/

/-- Each list of bytes decodes to the instruction beside it, and that instruction encodes to those bytes. -/
def readsAs (l : List (List Byte × Instr)) : Bool :=
  l.all fun p => decide (decode p.1 = .ok (p.2, []) ∧ encode p.2 = p.1)

theorem test_decode_loads_and_stores : readsAs [
    ([0b10101001, 0x5A], .ldaImm 0x5A), ([0b10100101, 0x5A], .ldaZp 0x5A), ([0b10110101, 0x5A], .ldaZpX 0x5A),
    ([0b10101101, 0xFE, 0x12], .ldaAbs 0x12FE), ([0b10111101, 0xFE, 0x12], .ldaAbsX 0x12FE),
    ([0b10111001, 0xFE, 0x12], .ldaAbsY 0x12FE), ([0b10100001, 0x5A], .ldaIndX 0x5A),
    ([0b10110001, 0x5A], .ldaIndY 0x5A), ([0b10100010, 0x5A], .ldxImm 0x5A), ([0b10100110, 0x5A], .ldxZp 0x5A),
    ([0b10110110, 0x5A], .ldxZpY 0x5A), ([0b10101110, 0xFE, 0x12], .ldxAbs 0x12FE),
    ([0b10111110, 0xFE, 0x12], .ldxAbsY 0x12FE), ([0b10100000, 0x5A], .ldyImm 0x5A),
    ([0b10100100, 0x5A], .ldyZp 0x5A), ([0b10110100, 0x5A], .ldyZpX 0x5A),
    ([0b10101100, 0xFE, 0x12], .ldyAbs 0x12FE), ([0b10111100, 0xFE, 0x12], .ldyAbsX 0x12FE),
    ([0b10000101, 0x5A], .staZp 0x5A), ([0b10010101, 0x5A], .staZpX 0x5A),
    ([0b10001101, 0xFE, 0x12], .staAbs 0x12FE), ([0b10011101, 0xFE, 0x12], .staAbsX 0x12FE),
    ([0b10011001, 0xFE, 0x12], .staAbsY 0x12FE), ([0b10000001, 0x5A], .staIndX 0x5A),
    ([0b10010001, 0x5A], .staIndY 0x5A), ([0b10000110, 0x5A], .stxZp 0x5A), ([0b10010110, 0x5A], .stxZpY 0x5A),
    ([0b10001110, 0xFE, 0x12], .stxAbs 0x12FE), ([0b10000100, 0x5A], .styZp 0x5A),
    ([0b10010100, 0x5A], .styZpX 0x5A), ([0b10001100, 0xFE, 0x12], .styAbs 0x12FE)] = true := by decide

theorem test_decode_transfers : readsAs [
    ([0b10101010], .tax), ([0b10101000], .tay), ([0b10001010], .txa), ([0b10011000], .tya), ([0b10111010], .tsx),
    ([0b10011010], .txs)] = true := by decide

theorem test_decode_arithmetic_and_logic : readsAs [
    ([0b01101001, 0x5A], .adcImm 0x5A), ([0b01100101, 0x5A], .adcZp 0x5A), ([0b01110101, 0x5A], .adcZpX 0x5A),
    ([0b01101101, 0xFE, 0x12], .adcAbs 0x12FE), ([0b01111101, 0xFE, 0x12], .adcAbsX 0x12FE),
    ([0b01111001, 0xFE, 0x12], .adcAbsY 0x12FE), ([0b01100001, 0x5A], .adcIndX 0x5A),
    ([0b01110001, 0x5A], .adcIndY 0x5A), ([0b11101001, 0x5A], .sbcImm 0x5A), ([0b11100101, 0x5A], .sbcZp 0x5A),
    ([0b11110101, 0x5A], .sbcZpX 0x5A), ([0b11101101, 0xFE, 0x12], .sbcAbs 0x12FE),
    ([0b11111101, 0xFE, 0x12], .sbcAbsX 0x12FE), ([0b11111001, 0xFE, 0x12], .sbcAbsY 0x12FE),
    ([0b11100001, 0x5A], .sbcIndX 0x5A), ([0b11110001, 0x5A], .sbcIndY 0x5A), ([0b00101001, 0x5A], .andImm 0x5A),
    ([0b00100101, 0x5A], .andZp 0x5A), ([0b00110101, 0x5A], .andZpX 0x5A),
    ([0b00101101, 0xFE, 0x12], .andAbs 0x12FE), ([0b00111101, 0xFE, 0x12], .andAbsX 0x12FE),
    ([0b00111001, 0xFE, 0x12], .andAbsY 0x12FE), ([0b00100001, 0x5A], .andIndX 0x5A),
    ([0b00110001, 0x5A], .andIndY 0x5A), ([0b00001001, 0x5A], .oraImm 0x5A), ([0b00000101, 0x5A], .oraZp 0x5A),
    ([0b00010101, 0x5A], .oraZpX 0x5A), ([0b00001101, 0xFE, 0x12], .oraAbs 0x12FE),
    ([0b00011101, 0xFE, 0x12], .oraAbsX 0x12FE), ([0b00011001, 0xFE, 0x12], .oraAbsY 0x12FE),
    ([0b00000001, 0x5A], .oraIndX 0x5A), ([0b00010001, 0x5A], .oraIndY 0x5A), ([0b01001001, 0x5A], .eorImm 0x5A),
    ([0b01000101, 0x5A], .eorZp 0x5A), ([0b01010101, 0x5A], .eorZpX 0x5A),
    ([0b01001101, 0xFE, 0x12], .eorAbs 0x12FE), ([0b01011101, 0xFE, 0x12], .eorAbsX 0x12FE),
    ([0b01011001, 0xFE, 0x12], .eorAbsY 0x12FE), ([0b01000001, 0x5A], .eorIndX 0x5A),
    ([0b01010001, 0x5A], .eorIndY 0x5A)] = true := by decide

theorem test_decode_shifts : readsAs [
    ([0b00001010], .aslAcc), ([0b00000110, 0x5A], .aslZp 0x5A), ([0b00010110, 0x5A], .aslZpX 0x5A),
    ([0b00001110, 0xFE, 0x12], .aslAbs 0x12FE), ([0b00011110, 0xFE, 0x12], .aslAbsX 0x12FE),
    ([0b01001010], .lsrAcc), ([0b01000110, 0x5A], .lsrZp 0x5A), ([0b01010110, 0x5A], .lsrZpX 0x5A),
    ([0b01001110, 0xFE, 0x12], .lsrAbs 0x12FE), ([0b01011110, 0xFE, 0x12], .lsrAbsX 0x12FE),
    ([0b00101010], .rolAcc), ([0b00100110, 0x5A], .rolZp 0x5A), ([0b00110110, 0x5A], .rolZpX 0x5A),
    ([0b00101110, 0xFE, 0x12], .rolAbs 0x12FE), ([0b00111110, 0xFE, 0x12], .rolAbsX 0x12FE),
    ([0b01101010], .rorAcc), ([0b01100110, 0x5A], .rorZp 0x5A), ([0b01110110, 0x5A], .rorZpX 0x5A),
    ([0b01101110, 0xFE, 0x12], .rorAbs 0x12FE), ([0b01111110, 0xFE, 0x12], .rorAbsX 0x12FE)] = true := by decide

theorem test_decode_increments : readsAs [
    ([0b11100110, 0x5A], .incZp 0x5A), ([0b11110110, 0x5A], .incZpX 0x5A),
    ([0b11101110, 0xFE, 0x12], .incAbs 0x12FE), ([0b11111110, 0xFE, 0x12], .incAbsX 0x12FE),
    ([0b11000110, 0x5A], .decZp 0x5A), ([0b11010110, 0x5A], .decZpX 0x5A),
    ([0b11001110, 0xFE, 0x12], .decAbs 0x12FE), ([0b11011110, 0xFE, 0x12], .decAbsX 0x12FE), ([0b11101000], .inx),
    ([0b11001000], .iny), ([0b11001010], .dex), ([0b10001000], .dey)] = true := by decide

theorem test_decode_compares : readsAs [
    ([0b11001001, 0x5A], .cmpImm 0x5A), ([0b11000101, 0x5A], .cmpZp 0x5A), ([0b11010101, 0x5A], .cmpZpX 0x5A),
    ([0b11001101, 0xFE, 0x12], .cmpAbs 0x12FE), ([0b11011101, 0xFE, 0x12], .cmpAbsX 0x12FE),
    ([0b11011001, 0xFE, 0x12], .cmpAbsY 0x12FE), ([0b11000001, 0x5A], .cmpIndX 0x5A),
    ([0b11010001, 0x5A], .cmpIndY 0x5A), ([0b11100000, 0x5A], .cpxImm 0x5A), ([0b11100100, 0x5A], .cpxZp 0x5A),
    ([0b11101100, 0xFE, 0x12], .cpxAbs 0x12FE), ([0b11000000, 0x5A], .cpyImm 0x5A),
    ([0b11000100, 0x5A], .cpyZp 0x5A), ([0b11001100, 0xFE, 0x12], .cpyAbs 0x12FE),
    ([0b00100100, 0x5A], .bitZp 0x5A), ([0b00101100, 0xFE, 0x12], .bitAbs 0x12FE)] = true := by decide

theorem test_decode_branches : readsAs [
    ([0b10010000, 0x5A], .bcc 0x5A), ([0b10110000, 0x5A], .bcs 0x5A), ([0b11110000, 0x5A], .beq 0x5A),
    ([0b11010000, 0x5A], .bne 0x5A), ([0b00110000, 0x5A], .bmi 0x5A), ([0b00010000, 0x5A], .bpl 0x5A),
    ([0b01010000, 0x5A], .bvc 0x5A), ([0b01110000, 0x5A], .bvs 0x5A)] = true := by decide

theorem test_decode_flag_instructions : readsAs [
    ([0b00011000], .clc), ([0b11011000], .cld), ([0b01011000], .cli), ([0b10111000], .clv), ([0b00111000], .sec),
    ([0b11111000], .sed), ([0b01111000], .sei)] = true := by decide

theorem test_decode_stack : readsAs [
    ([0b01001000], .pha), ([0b01101000], .pla), ([0b00001000], .php), ([0b00101000], .plp)] = true := by decide

theorem test_decode_control : readsAs [
    ([0b01001100, 0xFE, 0x12], .jmpAbs 0x12FE), ([0b01101100, 0xFE, 0x12], .jmpInd 0x12FE),
    ([0b00100000, 0xFE, 0x12], .jsr 0x12FE), ([0b01100000], .rts), ([0b00000000], .brk), ([0b01000000], .rti),
    ([0b11101010], .nop)] = true := by decide

/-- R75: a byte of every kind of gap; R70: an instruction cut short. -/
theorem test_decode_rejects :
    decode [0x02, 0x00] = .error (.unknownOpcode 0x02) ∧ decode [0xFF] = .error (.unknownOpcode 0xFF) ∧
    decode [0x89, 0x05] = .error (.unknownOpcode 0x89) ∧ decode [] = .error .truncated ∧
    decode [0xA9] = .error .truncated ∧ decode [0x4C, 0x34] = .error .truncated ∧
    decode [0xA9, 0x05, 0x85] = .ok (.ldaImm 0x05, [0x85]) := by decide

/-- The first byte is in bits 7 to 0. -/
theorem test_decode_table_word :
    decodeTableWord 16 0x05A9 = some (.ldaImm 0x05) ∧ decodeTableWord 24 0x1234BD = some (.ldaAbsX 0x1234) ∧
    decodeTableWord 8 0x0A = some .aslAcc ∧ decodeTableWord 8 0xA9 = some (.ldaImm 0x00) ∧
    decodeTableWord 8 0x02 = none := by decide

/-! ## One step -/

/-- A live core about to fetch the bytes given. -/
def start (pc : Word) (code : List Byte) : State :=
  { State.reset with pc := pc, ram := storeBytes pc code [], log := [] }

/-- The state with bytes put in RAM. -/
def poke (l : List (Word × Byte)) (s : State) : State :=
  l.foldl (fun s p => { s with ram := Memory.write s.ram p.1.toNat p.2 }) s

/-- What is seen of the state a step leaves, with the step's cost. -/
def ran {α : Type} (s : State) (see : State → α) : Option (α × Nat) :=
  match stepCall s with
  | .ok t n => some (see t, n)
  | _ => none

/-- withFetchWord puts the instruction where the next step fetches it, whatever the bus was to answer. -/
theorem test_with_fetch_word :
    ran ({ State.reset with answers := [some 0xEA, some 0x02, some 0x07] }.withFetchWord 16 0x05A9)
      (fun t => (t.a, t.pc, t.answers)) = some ((0x05, 0x0002, [some 0x07]), 2) := by decide

/-! ### Loads, stores, transfers -/

/-- V-LS1. -/
theorem test_lda_zero : ran { start 0 [0xA9, 0x00] with a := 0x55, p := 0xA4 }
    (fun t => (t.a, t.p, t.pc)) = some ((0x00, 0x26, 0x0002), 2) := by decide

/-- V-LS3. -/
theorem test_lda_page_cross : ran (poke [(0x1300, 0x07)] { start 0 [0xBD, 0xFF, 0x12] with x := 0x01 })
    (fun t => (t.a, t.p)) = some ((0x07, 0x24), 5) := by decide

/-- V-LS4. -/
theorem test_lda_no_page_cross : ran (poke [(0x12FF, 0x07)] { start 0 [0xBD, 0xFE, 0x12] with x := 0x01 })
    (fun t => t.a) = some (0x07, 4) := by decide

/-- V-LS5, V-AM14. -/
theorem test_lda_indirect_y : ran (poke [(0x00FF, 0xFF), (0x0000, 0x10), (0x1100, 0x99)] { start 0x0200 [0xB1, 0xFF] with y := 0x01 })
    (fun t => (t.a, t.flag .N)) = some ((0x99, true), 6) := by decide

/-- V-LS6, at 0x0200. -/
theorem test_ldx_zero_page_y : ran (poke [(0x0000, 0x42)] { start 0x0200 [0xB6, 0xFF] with y := 0x01 })
    (fun t => (t.x, t.a)) = some ((0x42, 0x00), 4) := by decide

/-- V-LS7. -/
theorem test_ldy_absolute_x : ran (poke [(0x02FF, 0x01)] { start 0 [0xBC, 0x00, 0x02] with x := 0xFF })
    (fun t => (t.y, t.p)) = some ((0x01, 0x24), 4) := by decide

/-- V-LS8. -/
theorem test_sta_absolute_x : ran { start 0 [0x9D, 0xFF, 0x12] with a := 0x11, x := 0x01 }
    (fun t => (peek t 0x1300, t.p, t.log.head?)) = some ((0x11, 0x24, some (.write 0x1300 0x11)), 5) := by decide

/-- V-LS9. -/
theorem test_sta_indirect_y : ran (poke [(0x00FF, 0xFF), (0x0000, 0x10)] { start 0x0200 [0x91, 0xFF] with y := 0x01, a := 0x22 })
    (fun t => (peek t 0x1100, t.log.length)) = some ((0x22, 5), 6) := by decide

/-- V-LS10. -/
theorem test_stx_zero_page_y : ran { start 0x0200 [0x96, 0xFF] with x := 0x33, y := 0x02 }
    (fun t => (peek t 0x0001, t.x)) = some ((0x33, 0x33), 4) := by decide

/-- R146. -/
theorem test_sty_absolute : ran { start 0 [0x8C, 0x34, 0x12] with y := 0x80 }
    (fun t => (peek t 0x1234, t.p)) = some ((0x80, 0x24), 4) := by decide

/-- V-LS11. -/
theorem test_tax : ran { start 0 [0xAA] with x := 0x05 }
    (fun t => (t.x, t.p)) = some ((0x00, 0x26), 2) := by decide

/-- R148. -/
theorem test_tay : ran { start 0 [0xA8] with a := 0x80 }
    (fun t => (t.y, t.p)) = some ((0x80, 0xA4), 2) := by decide

/-- R149. -/
theorem test_txa : ran { start 0 [0x8A] with x := 0x7F, y := 0x01 }
    (fun t => (t.a, t.p)) = some ((0x7F, 0x24), 2) := by decide

/-- V-LS14. -/
theorem test_tya : ran { start 0 [0x98] with y := 0x80 }
    (fun t => (t.a, t.flag .N)) = some ((0x80, true), 2) := by decide

/-- V-LS12. -/
theorem test_tsx : ran (start 0 [0xBA])
    (fun t => (t.x, t.flag .N, t.flag .Z)) = some ((0xFD, true, false), 2) := by decide

/-- V-LS13. -/
theorem test_txs : ran (start 0 [0x9A])
    (fun t => (t.sp, t.p)) = some ((0x00, 0x24), 2) := by decide

/-! ### Arithmetic and logic -/

/-- V-ADC1 to V-ADC11: A, M, carry in; A out, C, V, Z, N. -/
theorem test_adc : ([(0x50, 0x10, 0, 0x60, 0, 0, 0, 0), (0x50, 0x50, 0, 0xA0, 0, 1, 0, 1), (0x50, 0x90, 0, 0xE0, 0, 0, 0, 1),
    (0x50, 0xD0, 0, 0x20, 1, 0, 0, 0), (0xD0, 0x90, 0, 0x60, 1, 1, 0, 0), (0xD0, 0xD0, 0, 0xA0, 1, 0, 0, 1),
    (0xFF, 0x00, 1, 0x00, 1, 0, 1, 0), (0x7F, 0x00, 1, 0x80, 0, 1, 0, 1), (0x80, 0x80, 0, 0x00, 1, 1, 1, 0),
    (0xFF, 0xFF, 1, 0xFF, 1, 0, 0, 1), (0x00, 0x00, 0, 0x00, 0, 0, 1, 0)] :
      List (Byte × Byte × Nat × Byte × Nat × Nat × Nat × Nat)).all (fun (a, m, cin, r, c, v, z, n) =>
    ran ({ start 0 [0x69, m] with a := a }.setFlag .C (cin == 1)) (fun t =>
      (t.a, (t.flag .C).toNat, (t.flag .V).toNat, (t.flag .Z).toNat, (t.flag .N).toNat)) == some ((r, c, v, z, n), 2)) =
    true := by decide

/-- V-ADC12. -/
theorem test_adc_decimal_off : ran { start 0 [0x69, 0x01] with a := 0x09, p := 0x2C }
    (fun t => (t.a, t.p)) = some ((0x0A, 0x2C), 2) := by decide

/-- V-SBC1 to V-SBC10: A, M, carry in; A out, C, V, Z, N. -/
theorem test_sbc : ([(0x50, 0xF0, 1, 0x60, 0, 0, 0, 0), (0x50, 0xB0, 1, 0xA0, 0, 1, 0, 1), (0xD0, 0x70, 1, 0x60, 1, 1, 0, 0),
    (0x00, 0x01, 1, 0xFF, 0, 0, 0, 1), (0x05, 0x03, 0, 0x01, 1, 0, 0, 0), (0x80, 0x00, 0, 0x7F, 1, 1, 0, 0),
    (0x00, 0x00, 1, 0x00, 1, 0, 1, 0), (0x00, 0x00, 0, 0xFF, 0, 0, 0, 1), (0x7F, 0xFF, 1, 0x80, 0, 1, 0, 1),
    (0xFF, 0x7F, 1, 0x80, 1, 0, 0, 1)] :
      List (Byte × Byte × Nat × Byte × Nat × Nat × Nat × Nat)).all (fun (a, m, cin, r, c, v, z, n) =>
    ran ({ start 0 [0xE9, m] with a := a }.setFlag .C (cin == 1)) (fun t =>
      (t.a, (t.flag .C).toNat, (t.flag .V).toNat, (t.flag .Z).toNat, (t.flag .N).toNat)) == some ((r, c, v, z, n), 2)) =
    true := by decide

/-- V-LG1, C and V set before. -/
theorem test_and_zero : ran { start 0 [0x29, 0x0F] with a := 0xF0, p := 0x65 }
    (fun t => (t.a, t.p)) = some ((0x00, 0x67), 2) := by decide

/-- V-LG3. -/
theorem test_ora_negative : ran { start 0 [0x09, 0x80] with a := 0x01 }
    (fun t => (t.a, t.p)) = some ((0x81, 0xA4), 2) := by decide

/-- V-LG5. -/
theorem test_eor_complement : ran { start 0 [0x49, 0xFF] with a := 0xAA }
    (fun t => (t.a, t.p)) = some ((0x55, 0x24), 2) := by decide

/-- V-AM11 with mem[0x0200] = 0x5A, V-LG6. -/
theorem test_eor_indirect_x : ran (poke [(0x00FF, 0x00), (0x0000, 0x02), (0x0200, 0x5A)] { start 0x0300 [0x41, 0xFE] with a := 0x5A, x := 0x01 })
    (fun t => (t.a, t.flag .Z)) = some ((0x00, true), 6) := by decide

/-! ### Shifts and increments -/

/-- V-SH1 to V-SH10 on A: opcode byte, v, carry in; r, C, Z, N. -/
theorem test_shifts_on_a : ([(0x0A, 0x80, 1, 0x00, 1, 1, 0), (0x0A, 0x41, 0, 0x82, 0, 0, 1), (0x4A, 0x01, 0, 0x00, 1, 1, 0),
    (0x4A, 0xFF, 1, 0x7F, 1, 0, 0), (0x2A, 0x80, 0, 0x00, 1, 1, 0), (0x2A, 0x00, 1, 0x01, 0, 0, 0),
    (0x2A, 0x40, 1, 0x81, 0, 0, 1), (0x6A, 0x01, 0, 0x00, 1, 1, 0), (0x6A, 0x00, 1, 0x80, 0, 0, 1),
    (0x6A, 0x02, 0, 0x01, 0, 0, 0)] : List (Byte × Byte × Nat × Byte × Nat × Nat × Nat)).all
      (fun (op, v, cin, r, c, z, n) =>
    ran ({ start 0 [op] with a := v }.setFlag .C (cin == 1)) (fun t =>
      (t.a, (t.flag .C).toNat, (t.flag .Z).toNat, (t.flag .N).toNat)) == some ((r, c, z, n), 2)) = true := by decide

/-- 43_shift_rotate.md vectors, the memory form. -/
theorem test_asl_memory : ran (poke [(0x0200, 0x81)] (start 0 [0x0E, 0x00, 0x02]))
    (fun t => (t.log.take 2, t.flag .C)) = some (([.write 0x0200 0x02, .read 0x0200 0x81], true), 6) := by decide

/-- R182, R126. -/
theorem test_lsr_absolute_x_no_penalty : ran (poke [(0x1300, 0x02)] { start 0 [0x5E, 0xFF, 0x12] with x := 0x01 })
    (fun t => (peek t 0x1300, t.a)) = some ((0x01, 0x00), 7) := by decide

/-- R183, R109. -/
theorem test_rol_zero_page_x : ran (poke [(0x0001, 0x40)] { start 0x0200 [0x36, 0xFF] with x := 0x02, p := 0x25 })
    (fun t => (peek t 0x0001, t.p)) = some ((0x81, 0xA4), 6) := by decide

/-- R184. -/
theorem test_ror_zero_page : ran (poke [(0x0010, 0x01)] { start 0x0200 [0x66, 0x10] with p := 0x25 })
    (fun t => (peek t 0x0010, t.p)) = some ((0x80, 0xA5), 5) := by decide

/-- V-ID1. -/
theorem test_inc_wraps : ran (poke [(0x0010, 0xFF)] { start 0x0200 [0xE6, 0x10] with p := 0x25 })
    (fun t => (peek t 0x0010, t.p)) = some ((0x00, 0x27), 5) := by decide

/-- V-ID3. -/
theorem test_inc_absolute_x : ran (poke [(0x1300, 0x7F)] { start 0 [0xFE, 0xFF, 0x12] with x := 0x01 })
    (fun t => (peek t 0x1300, t.flag .N)) = some ((0x80, true), 7) := by decide

/-- V-ID2. -/
theorem test_dec_wraps : ran (start 0x0200 [0xC6, 0x10])
    (fun t => (peek t 0x0010, t.p)) = some ((0xFF, 0xA4), 5) := by decide

/-- V-ID4. -/
theorem test_inx : ran { start 0 [0xE8] with x := 0xFF }
    (fun t => (t.x, t.p)) = some ((0x00, 0x26), 2) := by decide

/-- V-ID5. -/
theorem test_iny : ran { start 0 [0xC8] with y := 0x7F }
    (fun t => (t.y, t.p)) = some ((0x80, 0xA4), 2) := by decide

/-- V-ID6. -/
theorem test_dex : ran (start 0 [0xCA])
    (fun t => (t.x, t.p)) = some ((0xFF, 0xA4), 2) := by decide

/-- V-ID7. -/
theorem test_dey : ran { start 0 [0x88] with y := 0x01 }
    (fun t => (t.y, t.p)) = some ((0x00, 0x26), 2) := by decide

/-! ### Compares and BIT -/

/-- V-CP1 to V-CP8 for CMP, CPX and CPY: register, M; C, Z, N.  V is set before and after. -/
theorem test_compares : ([(0x10, 0x10, 1, 1, 0), (0x10, 0x20, 0, 0, 1), (0x20, 0x10, 1, 0, 0), (0x00, 0xFF, 0, 0, 0),
    (0xFF, 0x00, 1, 0, 1), (0x80, 0x01, 1, 0, 0), (0x01, 0x80, 0, 0, 1), (0x00, 0x00, 1, 1, 0)] :
      List (Byte × Byte × Nat × Nat × Nat)).all (fun (reg, m, c, z, n) =>
    [ran { start 0 [0xC9, m] with a := reg, x := 0x55, y := 0x66, p := 0x64 } (fun t => (t.a, t.p)),
     ran { start 0 [0xE0, m] with x := reg, a := 0x55, y := 0x66, p := 0x64 } (fun t => (t.x, t.p)),
     ran { start 0 [0xC0, m] with y := reg, a := 0x55, x := 0x66, p := 0x64 } (fun t => (t.y, t.p))].all
      (· == some ((reg, BitVec.ofNat 8 (0x64 + c + 2 * z + 128 * n)), 2))) = true := by decide

/-- V-BT1, V-BT2, V-BT4: A, M; Z, N, V. -/
theorem test_bit : ([(0x01, 0xC0, 1, 1, 1), (0xFF, 0x3F, 0, 0, 0), (0x00, 0xFF, 1, 1, 1)] :
      List (Byte × Byte × Nat × Nat × Nat)).all (fun (a, m, z, n, v) =>
    ran (poke [(0x0010, m)] { start 0x0200 [0x24, 0x10] with a := a }) (fun t =>
      (t.a, (t.flag .Z).toNat, (t.flag .N).toNat, (t.flag .V).toNat)) == some ((a, z, n, v), 3)) = true := by decide

/-- V-BT3. -/
theorem test_bit_absolute : ran (poke [(0x0200, 0x40)] { start 0 [0x2C, 0x00, 0x02] with a := 0x40 })
    (fun t => (t.flag .Z, t.flag .N, t.flag .V)) = some ((false, false, true), 4) := by decide

/-! ### Branches and flags -/

/-- V-BR1 to V-BR9: address, bytes, P before; PC after, cycles. -/
theorem test_branches : ([(0x0010, 0xD0, 0x05, 0x26, 0x0012, 2), (0x0010, 0xD0, 0x05, 0x24, 0x0017, 3),
    (0x00FC, 0xF0, 0x02, 0x26, 0x0100, 4), (0x0100, 0xB0, 0xFE, 0x25, 0x0100, 3), (0x0080, 0x90, 0x80, 0x24, 0x0002, 3),
    (0x0000, 0x30, 0x80, 0xA4, 0xFF82, 4), (0x00FE, 0x10, 0x00, 0x24, 0x0100, 3), (0x0010, 0x50, 0x10, 0x24, 0x0022, 3),
    (0x0010, 0x70, 0x10, 0x24, 0x0012, 2)] : List (Word × Byte × Byte × Byte × Word × Nat)).all
      (fun (addr, op, b, p, pc, n) =>
    ran { start addr [op, b] with p := p } (fun t => (t.pc, t.p)) == some ((pc, p), n)) = true := by decide

/-- V-FL1 to V-FL7: opcode byte, P before, P after. -/
theorem test_flag_instructions : ([(0x18, 0x25, 0x24), (0x38, 0x24, 0x25), (0x58, 0x24, 0x20), (0x78, 0x20, 0x24),
    (0xB8, 0xE4, 0xA4), (0xD8, 0x2C, 0x24), (0xF8, 0x24, 0x2C)] : List (Byte × Byte × Byte)).all (fun (op, p, p') =>
    ran { start 0 [op] with p := p } (fun t => t.p) == some (p', 2)) = true := by decide

/-! ### Stack and control transfer -/

/-- V-ST1. -/
theorem test_pha : ran { start 0 [0x48] with a := 0x42 }
    (fun t => (peek t 0x01FD, t.sp)) = some ((0x42, 0xFC), 3) := by decide

/-- V-ST2. -/
theorem test_pla : ran { start 0 [0x68] with sp := 0xFC, p := 0xA4, a := 0x11 }
    (fun t => (t.a, t.sp, t.p)) = some ((0x00, 0xFD, 0x26), 4) := by decide

/-- V-ST8. -/
theorem test_pla_wraps : ran (poke [(0x0100, 0x80)] { start 0 [0x68] with sp := 0xFF })
    (fun t => (t.a, t.sp, t.flag .N)) = some ((0x80, 0x00, true), 4) := by decide

/-- V-ST5. -/
theorem test_php : ran (start 0 [0x08])
    (fun t => (peek t 0x01FD, t.p, t.sp)) = some ((0x34, 0x24, 0xFC), 3) := by decide

/-- V-ST6. -/
theorem test_plp_ones : ran (poke [(0x01FD, 0xFF)] { start 0 [0x28] with sp := 0xFC })
    (fun t => (t.p, t.sp)) = some ((0xEF, 0xFD), 4) := by decide

/-- V-ST7. -/
theorem test_plp_zeros : ran { start 0 [0x28] with sp := 0xFC }
    (fun t => t.p) = some (0x20, 4) := by decide

/-- V-CT1. -/
theorem test_jmp_absolute : ran (start 0 [0x4C, 0x34, 0x12])
    (fun t => (t.pc, t.log.length)) = some ((0x1234, 3), 3) := by decide

/-- V-CT2. -/
theorem test_jmp_indirect : ran (poke [(0x10FF, 0x40), (0x1100, 0x55)] (start 0x0200 [0x6C, 0xFF, 0x10]))
    (fun t => t.pc) = some (0x0040, 5) := by decide

/-- V-CT10. -/
theorem test_jmp_pc_wraps : ran (start 0xFFFF [0x4C, 0x34, 0x12])
    (fun t => t.pc) = some (0x1234, 3) := by decide

/-- V-CT3. -/
theorem test_jsr : ran (start 0 [0x20, 0x10, 0x00])
    (fun t => (peek t 0x01FD, peek t 0x01FC, t.sp, t.pc)) = some ((0x00, 0x02, 0xFB, 0x0010), 6) := by decide

/-- V-CT4. -/
theorem test_rts : ran (poke [(0x01FC, 0x02)] { start 0x0200 [0x60] with sp := 0xFB })
    (fun t => (t.pc, t.sp)) = some ((0x0003, 0xFD), 6) := by decide

/-- V-CT5. -/
theorem test_rts_wraps : ran (poke [(0x01FC, 0xFF), (0x01FD, 0xFF)] { start 0x0200 [0x60] with sp := 0xFB })
    (fun t => t.pc) = some (0x0000, 6) := by decide

/-- V-CT6. -/
theorem test_brk : ran (poke [(0xFFFF, 0x03)] (start 0 [0x00]))
    (fun t => ([peek t 0x01FD, peek t 0x01FC, peek t 0x01FB, t.sp, t.p], t.pc)) = some (([0x00, 0x02, 0x34, 0xFA, 0x24], 0x0300), 7) := by decide

/-- V-CT7. -/
theorem test_rti : ran (poke [(0x01FB, 0x34), (0x01FC, 0x02)] { start 0x0200 [0x40] with sp := 0xFA })
    (fun t => (t.p, t.pc, t.sp)) = some ((0x34, 0x0002, 0xFD), 6) := by decide

/-- V-CT8. -/
theorem test_rti_unused_forced : ran (poke [(0x01FB, 0xCB), (0x01FD, 0x80)] { start 0x0200 [0x40] with sp := 0xFA })
    (fun t => (t.p, t.pc)) = some ((0xEB, 0x8000), 6) := by decide

/-- V-CT9. -/
theorem test_nop : ran (start 0x0040 [0xEA])
    (fun t => t) = some ({ start 0x0040 [0xEA] with pc := 0x0041, cycles := 2, log := [.read 0x0040 0xEA] }, 2) := by decide

/-! ### Faults, reset, interrupts, assembler text -/

/-- V-EX1. -/
theorem test_unknown_opcode : stepCall (start 0x0041 [0x02]) =
    .halted { start 0x0041 [0x02] with pc := 0x0042, fault := some ⟨0x02, 0x0041⟩, log := [.read 0x0041 0x02] }
      (.unknownOpcode ⟨0x02, 0x0041⟩) := by decide

/-- S7, V-EX8: reset on a halted core, the vector at 0xFFFC holding 0x1234. -/
theorem test_reset :
    let s := poke [(0xFFFC, 0x34), (0xFFFD, 0x12)] { start 0 [] with
      a := 1, x := 2, y := 3, sp := 4, p := 0xFF, cycles := 99, fault := some ⟨0x02, 0x0041⟩ }
    resetCall s = { s with
      pc := 0x1234, a := 0, x := 0, y := 0, sp := 0xFD, p := 0x24, cycles := 0, fault := none
      log := [.read 0xFFFD 0x12, .read 0xFFFC 0x34] } := by decide

/-- V-EX4. -/
theorem test_irq_masked : serviceInterrupt .irq (start 0 []) = .masked (start 0 []) := by decide

/-- V-EX5. -/
theorem test_irq_taken :
    (match serviceInterrupt .irq (poke [(0xFFFF, 0x04)] { start 0x0001 [] with p := 0x20 }) with
      | .ok t n => some ([peek t 0x01FD, peek t 0x01FC, peek t 0x01FB, t.p, t.sp], t.pc, n)
      | _ => none) = some ([0x00, 0x01, 0x20, 0x24, 0xFA], 0x0400, 7) := by decide

/-- V-EX6, and the pushed status of V-EX7. -/
theorem test_nmi_taken :
    (match serviceInterrupt .nmi (poke [(0xFFFB, 0x05)] (start 0x1234 [])),
        serviceInterrupt .nmi { start 0 [] with p := 0xFF } with
      | .ok t n, .ok u _ =>
        some ([peek t 0x01FD, peek t 0x01FC, peek t 0x01FB, t.p, peek u 0x01FB, u.p], t.pc, n)
      | _, _ => none) = some ([0x12, 0x34, 0x24, 0x24, 0xEF, 0xFF], 0x0500, 7) := by decide

/-- S8: the program text assembles to the bytes given. -/
theorem test_assemble_text : assembleText [] 0 "LDA #$05; STA $10; LDA #$00; ADC $10".toList =
    some [0xA9, 0x05, 0x85, 0x10, 0xA9, 0x00, 0x65, 0x10] := by decide +kernel

/-- R77's examples, and L3-P4's branch to a label. -/
theorem test_assemble_statements :
    assemble [] 0 "ASL A".toList = some .aslAcc ∧ assemble [] 0 "ASL".toList = some .aslAcc ∧
    assemble [] 0 "CLC".toList = some .clc ∧ assemble [] 0 "LDA $10,X".toList = some (.ldaZpX 0x10) ∧
    assemble [] 0 "LDX $10,Y".toList = some (.ldxZpY 0x10) ∧ assemble [] 0 "JMP $1234".toList = some (.jmpAbs 0x1234) ∧
    assemble [] 0 "LDA $1234,X".toList = some (.ldaAbsX 0x1234) ∧
    assemble [] 0 "JMP ($10FF)".toList = some (.jmpInd 0x10FF) ∧
    assemble [] 0 "LDA ($20,X)".toList = some (.ldaIndX 0x20) ∧
    assemble [] 0 "LDA ($20),Y".toList = some (.ldaIndY 0x20) ∧
    assemble [("loop".toList, 0x0004)] 0x000A "BNE loop".toList = some (.bne 0xF8) ∧
    assemble [] 0 "STA #$05".toList = none := by decide +kernel

/-! ## Witnesses: states and operands that meet the hypotheses of the statements -/

theorem witness_EncodeOfDecodeIsTheBytes : decode [0xBD, 0xFF, 0x12, 0x07] = .ok (.ldaAbsX 0x12FF, [0x07]) := by decide

theorem witness_OpcodeTableIsInjective :
    (⟨0x00, .brk, .impl, 7⟩ : Row) ∈ opcodeTable ∧ (⟨0xFE, .inc, .absX, 7⟩ : Row) ∈ opcodeTable ∧
    lookup 0xFE = some ⟨0xFE, .inc, .absX, 7⟩ ∧ lookup 0xFF = none ∧
    (⟨0xFE, .nop, .impl, 2⟩ : Row) ∉ opcodeTable ∧
    (⟨0xFE, .nop, .impl, 2⟩ : Row).opcode ∈ opcodeTable.map Row.opcode := by decide

theorem witness_UnassignedBytesAreThe105Listed :
    (0x02 : Byte) ∈ unassignedBytes ∧ (0xFF : Byte) ∈ unassignedBytes ∧ (0xFE : Byte) ∉ unassignedBytes := by
  decide +kernel

/-- The code wraps past 0xFFFF, and the bus answers the opcode of its own. -/
theorem witness_StepRunsTheDecodedInstruction :
    let s := { start 0xFFFE [0x00, 0xFF, 0x12] with answers := [some 0xBD] }
    s.Live ∧ decode (fetchBytes (Instr.ldaAbsX 0x12FF).length s).1 = .ok (.ldaAbsX 0x12FF, []) := by decide

theorem witness_StepCostsTwoToSevenCycles :
    (∃ t, step (start 0 [0xEA]) = .next t ∧ t.cycles = 2) ∧ (∃ t, step (start 0 [0x00]) = .next t ∧ t.cycles = 7) ∧
    (∃ t f, stepCall (start 0 [0x02]) = .halted t f) := ⟨⟨_, rfl, rfl⟩, ⟨_, rfl, rfl⟩, ⟨_, _, rfl⟩⟩

theorem witness_StepMakesExactlyTheListedAccesses :
    (start 0 [0x91, 0xFF]).Live ∧
    decode (fetchBytes (Instr.staIndY 0xFF).length (start 0 [0x91, 0xFF])).1 = .ok (.staIndY 0xFF, []) := by decide

theorem witness_UnassignedByteHaltsTheCore :
    (start 0xFFFF [0xFF]).Live ∧ (start 0xFFFF [0xFF]).busAnswer (start 0xFFFF [0xFF]).pc ∈ unassignedBytes ∧
    step (start 0xFFFF [0xFF]) = .fault (.unknownOpcode ⟨0xFF, 0xFFFF⟩) := by
  refine ⟨by decide, by decide +kernel, rfl⟩

theorem witness_HaltedCoreStaysHaltedUntilReset :
    let s := { start 0 [] with fault := some ⟨0x02, 0x0041⟩ }
    s.created = true ∧ s.fault = some ⟨0x02, 0x0041⟩ := by decide

theorem witness_NothingRunsBeforeReset : State.beforeReset.created = false := by decide

theorem witness_IrqIsMaskedByIAndNmiIsNot :
    (start 0 []).Live ∧ (start 0 []).flag .I = true ∧
    { start 0 [] with p := 0x20 }.Live ∧ { start 0 [] with p := 0x20 }.flag .I = false := by decide

theorem witness_InterruptEntryPushesAndVectors :
    let s := { start 0x1234 [] with p := 0x20, sp := 0x01 }
    s.Live ∧ (InterruptKind.irq = .irq → s.flag .I = false) ∧ (start 0 []).Live ∧
    (InterruptKind.nmi = .irq → (start 0 []).flag .I = false) := by decide

theorem witness_AccessorsReadTheRegisters :
    (start 0 []).created = true ∧
    (Flag.C, 0) ∈ [(Flag.C, 0), (.Z, 1), (.I, 2), (.D, 3), (.B, 4), (.U, 5), (.V, 6), (.N, 7)] ∧
    (Flag.N, 7) ∈ [(Flag.C, 0), (.Z, 1), (.I, 2), (.D, 3), (.B, 4), (.U, 5), (.V, 6), (.N, 7)] := by decide

theorem witness_EveryStepKeepsTheInvariant :
    let s := { start 0 [0x85, 0x10] with a := 0x07 }
    s.Inv ∧ ∃ t, step s = .next t ∧ t.ram = [(0x00, 0x85), (0x01, 0x10), (0x10, 0x07)] :=
  ⟨by decide, _, rfl, rfl⟩

/-- Reset, a store, a masked IRQ, an NMI, an unassigned byte and a step of the halted core. -/
theorem witness_EveryCallSequenceKeepsTheInvariant :
    let s := poke [(0xFFFC, 0x00), (0xFFFD, 0x02), (0xFFFB, 0x04), (0x0400, 0x02)] { start 0x0200 [0x85, 0x10] with a := 0x07 }
    s.Inv ∧ Memory.wf s.ram ∧
    ∃ t, runCalls [.step, .reset, .step, .service .irq, .service .nmi, .step, .step, .service .nmi] s = .ok t ∧
      t.fault = some ⟨0x02, 0x0400⟩ := ⟨by decide, by decide, _, rfl, rfl⟩

theorem witness_BusReadMayGiveAnyByte :
    { start 0 [] with answers := [some 0xFF, none] }.answers = some 0xFF :: [none] ∧
    { start 0 [] with answers := [none] }.answers = none :: [] ∧ (start 0 []).answers = [] := by decide

theorem witness_StoresAreSeenByLaterReadsAndFetches : (start 0 [0x85]).FlatBus := by decide

theorem witness_PopWordUndoesPushWord : { start 0 [] with sp := 0x00 }.FlatBus := by decide

theorem witness_OperandValueIsOneReadAtTheEffectiveAddress :
    (Instr.ldaImm 0xFF).operand = .imm 0xFF ∧ Instr.aslAcc.mode = .acc ∧
    (Instr.ldaIndY 0xFF).mode ≠ .imm ∧ (Instr.ldaIndY 0xFF).operandClass = .read ∧
    (Instr.incZp 0x00).mode ≠ .imm ∧ (Instr.incZp 0x00).operandClass = .rmw := by decide

/-- Both sides of the test at the page's last byte: 0x12FE + 1 stays, 0x12FF + 1 crosses. -/
theorem witness_PageCrossComparesHighBytes :
    (Operand.absX 0x12FF).mode ∈ [Mode.absX, .absY, .indY] ∧ (Operand.zpX 0xFF).mode ∉ [Mode.absX, .absY, .indY] ∧
    (Operand.absX 0x12FF = .absX 0x12FF ∨ Operand.absX 0x12FF = .absY 0x12FF) ∧ Operand.indY 0xFF = .indY 0xFF ∧
    (resolve (.absX 0x12FE) { start 0 [] with x := 0x01 }).crossed = false ∧
    (resolve (.absX 0x12FF) { start 0 [] with x := 0x01 }).crossed = true := by decide

theorem witness_ExtrasAreThoseOfPageCrossesAndBranches :
    pageCrossPenalty (.ldaAbsX 0) true = 1 ∧ pageCrossPenalty (.staAbsX 0) true = 0 ∧
    branchExtra false 0x00FE 0x0100 = 0 ∧ branchExtra true 0x00FE 0x0100 = 2 ∧ branchExtra true 0x00FE 0x00FF = 1 := by
  decide

theorem witness_LoadsCopyTheOperandAndSetZN :
    (Instr.ldaImm 0xFF).mnemonic = .lda ∧ (Instr.ldxZpY 0x00).mnemonic = .ldx ∧ (Instr.ldyAbsX 0xFFFF).mnemonic = .ldy := by
  decide

theorem witness_StoresWriteTheRegister :
    (Instr.staIndY 0xFF).mnemonic = .sta ∧ (Instr.stxZpY 0x00).mnemonic = .stx ∧ (Instr.styAbs 0xFFFF).mnemonic = .sty := by
  decide

theorem witness_AdcAddsWithCarry : (Instr.adcIndX 0xFF).mnemonic = .adc := by decide

theorem witness_SbcSubtractsWithBorrow : (Instr.sbcImm 0x00).mnemonic = .sbc := by decide

theorem witness_DecimalArithmeticIsRefusedOnlyWhenEnabled :
    let cfg : Config := { decimalEnabled := true, brkReturnOffset := 2 }
    let s := { start 0 [] with p := 0x2C }
    (cfg.decimalEnabled = true ∧ s.flag .D = true) ∧
    Config.hardware.decimalEnabled = false ∧ (start 0 []).flag .D = false ∧
    (Instr.adcImm 1).mnemonic = .adc ∧ (Instr.sbcImm 1).mnemonic = .sbc := by decide

theorem witness_DecimalFlagDoesNotInterfere :
    ((Instr.adcImm 0x01).mnemonic = .adc ∨ (Instr.adcImm 0x01).mnemonic = .sbc) ∧
    ((Instr.sbcZp 0x01).mnemonic = .adc ∨ (Instr.sbcZp 0x01).mnemonic = .sbc) := by decide

theorem witness_LogicalInstructionsCombineIntoA :
    (Instr.andImm 0).mnemonic = .and ∧ (Instr.oraAbsY 0).mnemonic = .ora ∧ (Instr.eorIndY 0).mnemonic = .eor := by decide

/-- One for each shift, on A and in memory, with the carry in at both values. -/
theorem witness_ShiftsActOnAOrMemory :
    let s := { start 0 [] with a := 0x81, p := 0x25 }
    ((Instr.aslAcc.mnemonic = .asl ∧ (0x02 : Byte) = operandOf .aslAcc s <<< 1 ∧ true = (operandOf .aslAcc s).getLsbD 7) ∧
      Instr.aslAcc.mode = .acc) ∧
    (Instr.lsrAcc.mnemonic = .lsr ∧ (0x40 : Byte) = operandOf .lsrAcc s >>> 1 ∧ true = (operandOf .lsrAcc s).getLsbD 0) ∧
    (Instr.rolAcc.mnemonic = .rol ∧ (0x03 : Byte) = (operandOf .rolAcc s <<< 1 ||| BitVec.ofNat 8 (s.flag .C).toNat) ∧
      true = (operandOf .rolAcc s).getLsbD 7) ∧
    ((Instr.rorZp 0x10).mnemonic = .ror ∧
      (0x80 : Byte) = (operandOf (.rorZp 0x10) s >>> 1 ||| (BitVec.ofNat 8 (s.flag .C).toNat <<< 7)) ∧
      false = (operandOf (.rorZp 0x10) s).getLsbD 0 ∧ (Instr.rorZp 0x10).mode ≠ .acc) := by decide

theorem witness_IncAndDecChangeMemory : (Instr.incZp 0).mnemonic = .inc ∧ (Instr.decAbsX 0xFFFF).mnemonic = .dec := by decide

theorem witness_ComparesSetCarryZeroNegative :
    (Instr.cmpImm 0).mnemonic = .cmp ∧ (Instr.cpxZp 0).mnemonic = .cpx ∧ (Instr.cpyAbs 0).mnemonic = .cpy := by decide

theorem witness_BitTestsTheOperand : (Instr.bitZp 0xFF).mnemonic = .bit := by decide

/-- Each branch in the reset state, whose flags are all 0 but I: taken where the flag is to be clear. -/
theorem witness_BranchesFollowTheirFlag :
    true = !(start 0 []).flag .C ∧ false = (start 0 []).flag .C ∧ false = (start 0 []).flag .Z ∧
    true = !(start 0 []).flag .Z ∧ false = (start 0 []).flag .N ∧ true = !(start 0 []).flag .N ∧
    true = !(start 0 []).flag .V ∧ false = (start 0 []).flag .V ∧ true = { start 0 [] with p := 0xE7 }.flag .V := by decide

theorem witness_FlagInstructionsWriteOneFlag :
    (Instr.clc, Flag.C, false) ∈ [(Instr.clc, Flag.C, false), (.cld, .D, false), (.cli, .I, false), (.clv, .V, false),
      (.sec, .C, true), (.sed, .D, true), (.sei, .I, true)] := by decide

theorem witness_RtsReturnsToAfterJsr : { start 0xFFFF [] with sp := 0x00 }.FlatBus := by decide

theorem witness_RtiReturnsFromBrk : { start 0xFFFF [] with sp := 0x01 }.FlatBus := by decide

theorem witness_RtiReturnsFromInterrupt :
    let s := { start 0xFFFF [] with sp := 0x01, p := 0x20 }
    s.FlatBus ∧ s.Live ∧ (InterruptKind.irq = .irq → s.flag .I = false) ∧
    (InterruptKind.nmi = .irq → (start 0 []).flag .I = false) := by decide

/-- For every flag but Unused, an instruction that changes it; and an NMI that changes I. -/
theorem witness_OnlyTheListedInstructionsChangeEachFlag :
    (∃ t, exec .sec (start 0 []) = .next t ∧ t.flag .C ≠ (start 0 []).flag .C) ∧
    (∃ t, exec (.ldaImm 0) (start 0 []) = .next t ∧ t.flag .Z ≠ (start 0 []).flag .Z) ∧
    (∃ t, exec .cli (start 0 []) = .next t ∧ t.flag .I ≠ (start 0 []).flag .I) ∧
    (∃ t, exec .sed (start 0 []) = .next t ∧ t.flag .D ≠ (start 0 []).flag .D) ∧
    (∃ t, exec .rti (poke [(0x01FE, 0x10)] (start 0 [])) = .next t ∧ t.flag .B ≠ (start 0 []).flag .B) ∧
    (∃ t, exec (.adcImm 0x80) { start 0 [] with a := 0x80 } = .next t ∧ t.flag .V ≠ (start 0 []).flag .V) ∧
    (∃ t, exec (.ldyImm 0x80) (start 0 []) = .next t ∧ t.flag .N ≠ (start 0 []).flag .N) ∧
    (∃ t, serviceInterrupt .nmi { start 0 [] with p := 0x20 } = .ok t 7 ∧
      t.flag .I ≠ { start 0 [] with p := 0x20 }.flag .I) :=
  ⟨⟨_, rfl, by decide⟩, ⟨_, rfl, by decide⟩, ⟨_, rfl, by decide⟩, ⟨_, rfl, by decide⟩, ⟨_, rfl, by decide⟩,
    ⟨_, rfl, by decide⟩, ⟨_, rfl, by decide⟩, ⟨_, rfl, by decide⟩⟩

theorem witness_OnlyTheListedInstructionsChangeEachRegister :
    (∃ t, exec (.ldaImm 1) (start 0 []) = .next t ∧ t.a ≠ (start 0 []).a) ∧
    (∃ t, exec .inx (start 0 []) = .next t ∧ t.x ≠ (start 0 []).x) ∧
    (∃ t, exec .iny (start 0 []) = .next t ∧ t.y ≠ (start 0 []).y) ∧
    (∃ t, exec .pha (start 0 []) = .next t ∧ t.sp ≠ (start 0 []).sp) ∧
    (∃ t, exec (.jmpAbs 1) (start 0 []) = .next t ∧ t.pc ≠ (start 0 []).pc) :=
  ⟨⟨_, rfl, by decide⟩, ⟨_, rfl, by decide⟩, ⟨_, rfl, by decide⟩, ⟨_, rfl, by decide⟩, ⟨_, rfl, by decide⟩⟩

theorem witness_MemoryChangesOnlyWhereInstructionsStore :
    (∃ t, exec (.incZp 0x10) (start 0 []) = .next t ∧ peek t 0x10 ≠ peek (start 0 []) 0x10) ∧
    (∃ t, exec .php (start 0 []) = .next t ∧ peek t 0x01FD ≠ peek (start 0 []) 0x01FD) ∧
    (∃ t, exec (.jsr 0) (start 0x0203 []) = .next t ∧ peek t 0x01FC ≠ peek (start 0x0203 []) 0x01FC) ∧
    (∃ t, exec .brk (start 0 []) = .next t ∧ peek t 0x01FB ≠ peek (start 0 []) 0x01FB) :=
  ⟨⟨_, rfl, by decide⟩, ⟨_, rfl, by decide⟩, ⟨_, rfl, by decide⟩, ⟨_, rfl, by decide⟩⟩

end Sys2Proof.Tests
end

section
/-! SUPPORT. The family of 10_state.md: what a step, an interrupt service and an instruction can do to the state, and
the proofs of its statements. -/

namespace Sys2Proof.Machine

/-! ## The invariant (R24, R34) -/

/-- The invariant reads RAM and P alone. -/
theorem State.Inv.congr {s t : State} (hs : s.Inv) (hram : t.ram = s.ram) (hp : t.p = s.p) : t.Inv := by
  obtain ⟨hwf, hbit⟩ := hs
  exact ⟨hram ▸ hwf, hp ▸ hbit⟩

/-- R60: a push keeps memory canonical. -/
theorem push8_wf {s : State} (h : Memory.wf s.ram) (v : Byte) : Memory.wf (push8 v s).ram :=
  write8_wf h (stackAddr s.sp) v

/-- R62: a pushed word keeps memory canonical. -/
theorem push16_wf {s : State} (h : Memory.wf s.ram) (w : Word) : Memory.wf (push16 w s).ram :=
  push8_wf (push8_wf h w.hi) w.lo

/-- Every instruction keeps the invariant. -/
theorem exec_inv {i : Instr} {s t : State} (hs : s.Inv) (h : exec i s = .next t) : t.Inv := by
  obtain ⟨hwf, hbit⟩ := hs
  constructor
  · obtain hr | ⟨-, v, hr⟩ | ⟨-, v, hr⟩ | ⟨-, w, hr⟩ | ⟨-, v, w, hr⟩ := exec_ram h <;> rw [hr]
    · exact hwf
    · exact write8_wf hwf _ v
    · exact push8_wf hwf v
    · exact push16_wf hwf w
    · exact push8_wf (push16_wf hwf w) v
  · obtain hp | ⟨v, hp⟩ := exec_p h <;> rw [hp]
    · exact hbit
    · exact withUnused_bit5 v

/-- R254, R277: interrupt entry keeps the invariant. -/
theorem enterInterrupt_inv {s : State} (hs : s.Inv) (r : Word) (v : Byte) (w : Word) : (enterInterrupt r v w s).Inv := by
  constructor
  · rw [enterInterrupt_ram]; exact push8_wf (push16_wf hs.1 r) v
  · rw [enterInterrupt_p]; exact withUnused_bit5 _

/-- R277: the entry of an interrupt that is taken keeps the invariant. -/
theorem takeInterrupt_inv {s : State} (hs : s.Inv) (k : InterruptKind) : (takeInterrupt k s).Inv :=
  (enterInterrupt_inv hs _ _ _).congr (addCycles_ram _ 7) (addCycles_p _ 7)

/-- R302: reset writes P whole and leaves memory, so it establishes the invariant on canonical memory. -/
theorem resetCall_inv {s : State} (h : Memory.wf s.ram) : (resetCall s).Inv := by
  constructor
  · rw [resetCall_ram]; exact h
  · rw [resetCall_p]; decide

/-! ## What each call can do, said once -/

/-- R32, R124, R270, R271: everything one call of `step()` can do: refused; the latched fault again; an unassigned byte
latched; or the instruction whose encoding stands at PC run after its bytes are fetched. -/
theorem stepCall_cases (s : State) :
    (s.created = false ∧ stepCall s = .refused .beforeReset) ∨
    (∃ r, s.created = true ∧ s.fault = some r ∧ stepCall s = .halted s (.unknownOpcode r)) ∨
    (s.Live ∧ lookup (s.busAnswer s.pc) = none ∧
      stepCall s = .halted ((fetchByte s).2.latch ⟨s.busAnswer s.pc, s.pc⟩)
        (.unknownOpcode ⟨s.busAnswer s.pc, s.pc⟩)) ∨
    (s.Live ∧ ∃ i t, (fetchBytes i.length s).1 = encode i ∧ exec i (fetchBytes i.length s).2 = .next t ∧
      stepCall s = .ok t (t.cycles - (fetchBytes i.length s).2.cycles)) := by
  cases hc : s.created with
  | false => exact .inl ⟨rfl, stepCall_notCreated hc⟩
  | true =>
    cases hf : s.fault with
    | some r => exact .inr (.inl ⟨r, rfl, rfl, stepCall_halted hc hf⟩)
    | none =>
      rw [stepCall_live ⟨hc, hf⟩]
      obtain ⟨hl, hrun⟩ | ⟨i, hbytes, hrun⟩ := fetchAndRun_cases s
      · exact .inr (.inr (.inl ⟨⟨hc, hf⟩, hl, hrun⟩))
      · obtain ⟨t, ht⟩ := exec_next i (fetchBytes i.length s).2
        exact .inr (.inr (.inr ⟨⟨hc, hf⟩, i, t, hbytes, ht, hrun.trans (runInstr_eq ht)⟩))

/-- R32, R276, R277, R287: everything a request for interrupt service can do: refused; the latched fault again; masked;
or taken. -/
theorem serviceInterrupt_cases (k : InterruptKind) (s : State) :
    (s.created = false ∧ serviceInterrupt k s = .refused .beforeReset) ∨
    (∃ r, s.created = true ∧ s.fault = some r ∧ serviceInterrupt k s = .halted s (.unknownOpcode r)) ∨
    (s.Live ∧ k = .irq ∧ s.flag .I = true ∧ serviceInterrupt k s = .masked s) ∨
    (s.Live ∧ ¬ (k = .irq ∧ s.flag .I = true) ∧ serviceInterrupt k s = .ok (takeInterrupt k s) 7) := by
  unfold serviceInterrupt
  cases hc : s.created with
  | false => simp
  | true =>
    cases hf : s.fault with
    | some r => simp
    | none =>
      by_cases hm : k = .irq ∧ s.flag .I = true
      · exact .inr (.inr (.inl ⟨⟨hc, hf⟩, hm.1, hm.2, by simp [hm]⟩))
      · exact .inr (.inr (.inr ⟨⟨hc, hf⟩, hm, by simp only [if_true, if_neg hm]⟩))

/-- The state of a step that completes is the one a caller's step leaves. -/
theorem run_of_step_next {s t : State} (h : step s = .next t) : Call.step.run s = .ok t := by
  unfold step at h
  cases hr : stepCall s <;> rw [hr] at h <;> cases h
  simp [Call.run, hr]

/-! ## Every sequence of calls keeps the invariant -/

/-- A step keeps the invariant, whether it completes or halts. -/
theorem runStep_inv {s t : State} (hs : s.Inv) (h : Call.step.run s = .ok t) : t.Inv := by
  unfold Call.run at h
  obtain ⟨-, hr⟩ | ⟨r, -, -, hr⟩ | ⟨-, -, hr⟩ | ⟨-, i, u, -, hexec, hr⟩ := stepCall_cases s <;>
    simp only [hr] at h <;> cases h
  · exact hs
  · exact hs.congr rfl rfl
  · exact exec_inv (hs.congr (by rw [fetchBytes_eq]) (by rw [fetchBytes_eq])) hexec

/-- An interrupt service keeps the invariant, whether it is taken, masked or halted. -/
theorem runService_inv {k : InterruptKind} {s t : State} (hs : s.Inv) (h : (Call.service k).run s = .ok t) : t.Inv := by
  unfold Call.run at h
  obtain ⟨-, hr⟩ | ⟨r, -, -, hr⟩ | ⟨-, -, -, hr⟩ | ⟨-, -, hr⟩ := serviceInterrupt_cases k s <;>
    simp only [hr] at h <;> cases h
  · exact hs
  · exact hs
  · exact takeInterrupt_inv hs k

/-- Every call keeps the invariant. -/
theorem run_inv {c : Call} {s t : State} (hs : s.Inv) (h : c.run s = .ok t) : t.Inv := by
  cases c with
  | reset => cases h; exact resetCall_inv hs.1
  | step => exact runStep_inv hs h
  | service k => exact runService_inv hs h

/-- Every sequence of calls keeps the invariant. -/
theorem runCalls_inv {cs : List Call} {s t : State} (hs : s.Inv) (h : runCalls cs s = .ok t) : t.Inv := by
  induction cs generalizing s with
  | nil => cases h; exact hs
  | cons c rest ih =>
    unfold runCalls at h
    split at h
    · next u hu => exact ih (run_inv hs hu) h
    · cases h

/-- Settles O19: a step is one of the caller's calls. -/
theorem everyStepKeepsTheInvariant : Obligations.EveryStepKeepsTheInvariant :=
  fun _ _ hs h => runStep_inv hs (run_of_step_next h)

/-- Settles O20, by induction on the sequence of calls. -/
theorem everyCallSequenceKeepsTheInvariant : Obligations.EveryCallSequenceKeepsTheInvariant :=
  ⟨fun _ _ _ hs h => runCalls_inv hs h, fun _ h => resetCall_inv h⟩

/-! ## The flags each instruction writes (R31) -/

/-- R31: the flags that the instructions of a mnemonic write. -/
def writtenFlags : Mnemonic → List Flag
  | .lda | .ldx | .ldy | .tax | .tay | .txa | .tya | .tsx | .and | .ora | .eor | .inc | .dec | .inx | .iny | .dex | .dey
  | .pla => [.Z, .N]
  | .adc | .sbc => [.C, .Z, .V, .N]
  | .asl | .lsr | .rol | .ror | .cmp | .cpx | .cpy => [.C, .Z, .N]
  | .bit => [.Z, .V, .N]
  | .clc | .sec => [.C]
  | .cld | .sed => [.D]
  | .cli | .sei | .brk => [.I]
  | .clv => [.V]
  | .plp | .rti => [.C, .Z, .I, .D, .B, .V, .N]
  | .sta | .stx | .sty | .txs | .pha | .php | .jmp | .jsr | .rts | .nop
  | .bcc | .bcs | .beq | .bne | .bmi | .bpl | .bvc | .bvs => []

/-- R23: a write of one flag leaves every other flag. -/
theorem setFlag_flag_of_ne {f g : Flag} (h : g ≠ f) (s : State) (b : Bool) : (s.setFlag f b).flag g = s.flag g := by
  rw [setFlag_flag, if_neg h]
  split
  · next hU => rw [hU, flag_U]
  · rfl

/-- R31: an instruction changes no flag but those its mnemonic writes. -/
theorem exec_sameFlags {i : Instr} {s t : State} (h : exec i s = .next t) :
    SameFlagsExcept (writtenFlags i.mnemonic) s t := by
  intro f hf
  rw [exec_eq_meaningOf] at h
  generalize i.mnemonic = m at h hf
  cases m
  case plp | rti =>
    have hU : f = .U := by revert hf; cases f <;> decide
    rw [hU, flag_U, flag_U]
  all_goals simp only [writtenFlags, List.mem_cons, List.not_mem_nil, not_or, not_false_eq_true, or_false] at hf
  all_goals simp only [meaningOf, arithmetic_hardware, readClass_eq, writeClass_eq, shiftClass_eq, incDecClass_eq,
    impliedClass_eq, branchClass_eq, jumpClass_eq] at h
  all_goals cases h
  case bcc | bcs | beq | bne | bmi | bpl | bvc | bvs => split <;> simp
  all_goals simp [loadA, loadX, loadY, subFromA, logicA, bitTest, softwareInterrupt, jumpTo, callTo, pushA, pushP,
    setZN_flag, setFlag_flag_of_ne, hf]

/-- R277: of the flags, interrupt service changes I alone. -/
theorem takeInterrupt_sameFlags (k : InterruptKind) (s : State) : SameFlagsExcept [.I] s (takeInterrupt k s) := by
  intro f hf
  simp only [List.mem_singleton] at hf
  simp [takeInterrupt, hf]

/-- R277: the state an interrupt service answers is the interrupt's entry. -/
theorem serviceInterrupt_ok {k : InterruptKind} {s t : State} {n : Nat} (h : serviceInterrupt k s = .ok t n) :
    t = takeInterrupt k s := by
  obtain ⟨-, hr⟩ | ⟨r, -, -, hr⟩ | ⟨-, -, -, hr⟩ | ⟨-, -, hr⟩ := serviceInterrupt_cases k s <;> rw [hr] at h <;> cases h
  rfl

/-- Settles O58: a changed flag is one its mnemonic writes, and R31's rows are those of `writtenFlags`. -/
theorem onlyTheListedInstructionsChangeEachFlag : Obligations.OnlyTheListedInstructionsChangeEachFlag := by
  constructor
  · intro i s t f h hne
    have hw : f ∈ writtenFlags i.mnemonic := not_imp_comm.1 (exec_sameFlags h f) hne
    revert hw
    generalize i.mnemonic = m
    cases f <;> cases m <;> decide
  · intro k s t n f h hne
    rw [serviceInterrupt_ok h] at hne
    exact List.mem_singleton.1 (not_imp_comm.1 (takeInterrupt_sameFlags k s f) hne)

/-! ## The registers each operation leaves -/

theorem setA_reg {r : Reg} (h : r ≠ .A) (s : State) (v : Byte) : (s.setA v).reg r = s.reg r := by
  cases r <;> simp_all [State.reg]

theorem setX_reg {r : Reg} (h : r ≠ .X) (s : State) (v : Byte) : (s.setX v).reg r = s.reg r := by
  cases r <;> simp_all [State.reg]

theorem setY_reg {r : Reg} (h : r ≠ .Y) (s : State) (v : Byte) : (s.setY v).reg r = s.reg r := by
  cases r <;> simp_all [State.reg]

theorem setSP_reg {r : Reg} (h : r ≠ .SP) (s : State) (v : Byte) : (s.setSP v).reg r = s.reg r := by
  cases r <;> simp_all [State.reg]

theorem setPC_reg {r : Reg} (h : r ≠ .PC) (s : State) (v : Word) : (s.setPC v).reg r = s.reg r := by
  cases r <;> simp_all [State.reg]

theorem push8_reg {r : Reg} (h : r ≠ .SP) (s : State) (v : Byte) : (push8 v s).reg r = s.reg r := by
  cases r <;> simp_all [State.reg]

theorem push16_reg {r : Reg} (h : r ≠ .SP) (s : State) (w : Word) : (push16 w s).reg r = s.reg r := by
  rw [push16, push8_reg h, push8_reg h]

theorem pop8_reg {r : Reg} (h : r ≠ .SP) (s : State) : (pop8 s).2.reg r = s.reg r := by
  cases r <;> simp_all [State.reg]

theorem pop16_reg {r : Reg} (h : r ≠ .SP) (s : State) : (pop16 s).2.reg r = s.reg r := by
  cases r <;> simp_all [State.reg]

@[simp] theorem setP_reg (s : State) (v : Byte) (r : Reg) : (s.setP v).reg r = s.reg r := by cases r <;> rfl

@[simp] theorem setFlag_reg (s : State) (f : Flag) (b : Bool) (r : Reg) : (s.setFlag f b).reg r = s.reg r :=
  setP_reg s _ r

@[simp] theorem setZN_reg (s : State) (v : Byte) (r : Reg) : (s.setZN v).reg r = s.reg r := by simp [State.setZN]

@[simp] theorem addCycles_reg (s : State) (n : Nat) (r : Reg) : (s.addCycles n).reg r = s.reg r := by cases r <;> rfl

@[simp] theorem write8_reg (a : Word) (v : Byte) (s : State) (r : Reg) : (write8 a v s).reg r = s.reg r := by
  cases r <;> rfl

@[simp] theorem resolve_reg (o : Operand) (s : State) (r : Reg) : (resolve o s).state.reg r = s.reg r := by
  cases r <;> simp [State.reg]

@[simp] theorem afterOperand_reg (i : Instr) (s : State) (r : Reg) : (afterOperand i s).reg r = s.reg r := by
  cases r <;> simp [State.reg]

theorem enterInterrupt_reg {r : Reg} (hsp : r ≠ .SP) (hpc : r ≠ .PC) (w : Word) (v : Byte) (a : Word) (s : State) :
    (enterInterrupt w v a s).reg r = s.reg r := by
  cases r <;> simp_all [State.reg]

/-- R104, R123: an instruction that puts a result back has an address to put it at, or is in Accumulator mode. -/
theorem mode_ne_impl_of_stores {i : Instr}
    (h : i.mnemonic ∈ [Mnemonic.sta, .stx, .sty, .asl, .lsr, .rol, .ror, .inc, .dec]) : i.mode ≠ .impl := by
  intro hi
  have hlegal := mode_legal i
  rw [hi] at hlegal
  revert h hlegal
  generalize i.mnemonic = m
  cases m <;> decide

/-- R144 to R146, R191, R192: only a shift puts its result back into A. -/
theorem mode_ne_acc_of_stores {i : Instr} (h : i.mnemonic ∈ [Mnemonic.sta, .stx, .sty, .inc, .dec]) : i.mode ≠ .acc := by
  intro ha
  have hlegal := mode_legal i
  rw [ha] at hlegal
  revert h hlegal
  generalize i.mnemonic = m
  cases m <;> decide

/-- R123, R180: a result put back changes A in Accumulator mode and no register otherwise. -/
theorem storeOperand_reg {i : Instr} (hi : i.mode ≠ .impl) {r : Reg} (hr : i.mode = .acc → r ≠ .A) (v : Byte)
    (s t : State) : (storeOperand (resolve i.operand s).ea v t).reg r = t.reg r := by
  by_cases ha : i.mode = .acc
  · rw [storeOperand_acc ha, setA_reg (hr ha)]
  · rw [storeOperand_mem ha hi, write8_reg]

/-! ## The registers each instruction writes -/

/-- R20 to R22, R140: the registers that the instructions of a mnemonic write in a mode. -/
def writtenRegs (m : Mnemonic) (mode : Mode) : List Reg :=
  match m with
  | .lda | .txa | .tya | .adc | .sbc | .and | .ora | .eor => [.A]
  | .asl | .lsr | .rol | .ror => if mode = .acc then [.A] else []
  | .ldx | .tax | .tsx | .inx | .dex => [.X]
  | .ldy | .tay | .iny | .dey => [.Y]
  | .txs | .pha | .php | .plp => [.SP]
  | .pla => [.A, .SP]
  | .jmp | .bcc | .bcs | .beq | .bne | .bmi | .bpl | .bvc | .bvs => [.PC]
  | .jsr | .rts | .brk | .rti => [.SP, .PC]
  | .sta | .stx | .sty | .inc | .dec | .cmp | .cpx | .cpy | .bit | .nop
  | .clc | .cld | .cli | .clv | .sec | .sed | .sei => []

/-- An instruction changes no register but those its mnemonic writes in its mode. -/
theorem exec_sameRegs {i : Instr} {s t : State} (h : exec i s = .next t) :
    SameRegsExcept (writtenRegs i.mnemonic i.mode) s t := by
  intro r hr
  rw [exec_eq_meaningOf] at h
  generalize hm : i.mnemonic = m at h hr
  cases m
  all_goals simp only [meaningOf, arithmetic_hardware, readClass_eq, writeClass_eq, shiftClass_eq, incDecClass_eq,
    impliedClass_eq, branchClass_eq, jumpClass_eq] at h
  all_goals cases h
  case sta | stx | sty | inc | dec =>
    have hi : i.mode ≠ .impl := mode_ne_impl_of_stores (by rw [hm]; decide)
    have ha : i.mode ≠ .acc := mode_ne_acc_of_stores (by rw [hm]; decide)
    simp [storeOperand_reg hi (absurd · ha)]
  case asl | lsr | rol | ror =>
    have hi : i.mode ≠ .impl := mode_ne_impl_of_stores (by rw [hm]; decide)
    have ha : i.mode = .acc → r ≠ .A := fun ha => by simpa [writtenRegs, ha] using hr
    simp [storeOperand_reg hi ha]
  all_goals simp only [writtenRegs, List.mem_cons, List.not_mem_nil, not_or, not_false_eq_true, or_false] at hr
  case bcc | bcs | beq | bne | bmi | bpl | bvc | bvs => split <;> simp [setPC_reg, hr]
  all_goals simp [loadA, loadX, loadY, subFromA, logicA, bitTest, softwareInterrupt, returnFromInterrupt_eq, jumpTo,
    callTo, pushA, pushP, setA_reg, setX_reg, setY_reg, setSP_reg, setPC_reg, push8_reg, push16_reg, pop8_reg,
    pop16_reg, enterInterrupt_reg, hr]

/-- A register that an instruction changes is one its mnemonic writes. -/
theorem mem_writtenRegs {i : Instr} {s t : State} (h : exec i s = .next t) {r : Reg} (hne : t.reg r ≠ s.reg r) :
    r ∈ writtenRegs i.mnemonic i.mode :=
  not_imp_comm.1 (exec_sameRegs h r) hne

/-- The mnemonics that write each register: `writtenRegs` read by register. -/
theorem writtenRegs_writers (m : Mnemonic) (mode : Mode) :
    (.A ∈ writtenRegs m mode → m ∈ [Mnemonic.lda, .txa, .tya, .adc, .sbc, .and, .ora, .eor, .pla] ∨ mode = .acc) ∧
    (.X ∈ writtenRegs m mode → m ∈ [Mnemonic.ldx, .tax, .tsx, .inx, .dex]) ∧
    (.Y ∈ writtenRegs m mode → m ∈ [Mnemonic.ldy, .tay, .iny, .dey]) ∧
    (.SP ∈ writtenRegs m mode → m ∈ [Mnemonic.txs, .pha, .pla, .php, .plp, .jsr, .rts, .brk, .rti]) ∧
    (.PC ∈ writtenRegs m mode →
      m.operandClass mode = .branch ∨ m ∈ [Mnemonic.jmp, .jsr, .rts, .brk, .rti]) := by
  cases m <;> simp [writtenRegs, Mnemonic.operandClass]

/-- Settles O59: a changed register is one that `writtenRegs` lists, and no instruction touches the latch. -/
theorem onlyTheListedInstructionsChangeEachRegister : Obligations.OnlyTheListedInstructionsChangeEachRegister := by
  intro i s t h
  obtain ⟨hA, hX, hY, hSP, hPC⟩ := writtenRegs_writers i.mnemonic i.mode
  have written : ∀ r, t.reg r ≠ s.reg r → r ∈ writtenRegs i.mnemonic i.mode := fun r => mem_writtenRegs h
  exact ⟨fun hne => hA (written .A (mt BitVec.eq_of_toNat_eq hne)),
    fun hne => hX (written .X (mt BitVec.eq_of_toNat_eq hne)),
    fun hne => hY (written .Y (mt BitVec.eq_of_toNat_eq hne)),
    fun hne => hSP (written .SP (mt BitVec.eq_of_toNat_eq hne)),
    fun hne => hPC (written .PC (mt BitVec.eq_of_toNat_eq hne)), exec_latch h⟩

/-! ## The accessors, the text form and the state after reset (R26, R32, R33) -/

/-- R32: an accessor before the first reset. -/
theorem accessor_notCreated {α : Type} {s : State} (h : s.created = false) (v : α) :
    s.accessor v = .error .beforeReset := by
  simp [State.accessor, h]

/-- R26: an accessor after reset. -/
theorem accessor_created {α : Type} {s : State} (h : s.created = true) (v : α) : s.accessor v = .ok v := by
  simp [State.accessor, h]

/-- Settles O12: `step`, `service_interrupt` and every accessor test `created` first. -/
theorem nothingRunsBeforeReset : Obligations.NothingRunsBeforeReset := by
  intro s k f h
  have hstep : stepCall s = .refused .beforeReset := stepCall_notCreated h
  refine ⟨hstep, by rw [step, hstep]; rfl, by simp [serviceInterrupt, h], ?_⟩
  refine ⟨?_, ?_, ?_, ?_, ?_, ?_, ?_, ?_, resetCall_created s⟩ <;> exact accessor_notCreated h _

/-- R33: `%02X` writes the digits of the upper-case table at the byte's two halves. -/
theorem hexDigit_eq {n : Nat} (h : n < 16) :
    ['0', '1', '2', '3', '4', '5', '6', '7', '8', '9', 'A', 'B', 'C', 'D', 'E', 'F'][n]? = some (hexDigit n) := by
  revert n; decide

/-- Settles O16: the two strings are evaluated; the layout is `formatChars`, and every digit is `hexDigit`'s. -/
theorem textFormIsBitExact : Obligations.TextFormIsBitExact := by
  refine ⟨by decide, by decide, fun s h => ?_, fun b => ?_⟩
  · rw [formatState, accessor_created h]; rfl
  · exact ⟨_, _, rfl, hexDigit_eq (by omega), hexDigit_eq (by omega)⟩

/-- Settles O17: after reset an accessor gives its value, and `Flag.bit` is R23's numbering. -/
theorem accessorsReadTheRegisters : Obligations.AccessorsReadTheRegisters := by
  intro s h
  have hflag : ∀ f, readFlag f s = .ok ((s.p ||| 0x20).getLsbD f.bit) := fun f => accessor_created h _
  refine ⟨accessor_created h _, accessor_created h _, accessor_created h _, accessor_created h _, accessor_created h _,
    accessor_created h _, ?_, fun f n hfn => ?_⟩
  · rw [readFlag, accessor_created h, flag_U]
  · have hn : n = f.bit := by revert hfn; cases f <;> simp [Flag.bit]
    rw [hn, hflag]

/-- Settles O18: reset's memory lists no byte and its P is 0x24. -/
theorem resetStateMeetsTheInvariant : Obligations.ResetStateMeetsTheInvariant :=
  ⟨⟨reset_ram_wf, by decide⟩, rfl, rfl⟩

end Sys2Proof.Machine
end

section
/-! SUPPORT. The family of 20_memory.md: the values and the transactions of bus and stack operations, and the proofs of
its statements. -/

namespace Sys2Proof.Machine

/-! ## The bus (R51, R52, R56) -/

/-- R56: the transactions added in front of a log, in the order they were made. -/
theorem newAccesses_of_append {new before after : List Access} (h : after = new ++ before) :
    newAccesses before after = new.reverse := by
  simp [newAccesses, h]

/-- R51: the whole of one bus read. -/
theorem read8_eq (a : Word) (s : State) : read8 a s =
    (s.busAnswer a, { s with answers := s.answers.tail, log := .read a (s.busAnswer a) :: s.log }) := rfl

/-- R51: the bus's own answer is the byte read. -/
theorem busAnswer_some {s : State} {v : Byte} {rest : List (Option Byte)} (h : s.answers = some v :: rest) (a : Word) :
    s.busAnswer a = v := by
  simp [State.busAnswer, h]

/-- R51: an answer the bus leaves to RAM is RAM's byte. -/
theorem busAnswer_none {s : State} {rest : List (Option Byte)} (h : s.answers = none :: rest) (a : Word) :
    s.busAnswer a = peek s a := by
  simp [State.busAnswer, peek, h]

/-- Settles O21, by the shape of the pending answers. -/
theorem busReadMayGiveAnyByte : Obligations.BusReadMayGiveAnyByte := by
  intro s a v rest
  refine ⟨fun h => ?_, fun h => ?_, fun h => ?_⟩
  · rw [read8_eq, busAnswer_some h, h, List.tail_cons]
  · rw [read8_eq, busAnswer_none h, h, List.tail_cons]
  · rw [read8_eq, busAnswer_flat h, h, List.tail_nil]

/-- Settles O22: `read16_answer` gives the value, and the log has two transactions more. -/
theorem wordReadIsTwoReadsLowFirst : Obligations.WordReadIsTwoReadsLowFirst := by
  intro s a
  refine ⟨read16_answer a s, ?_, by decide⟩
  rw [newAccesses_of_append (new := [_, _]) (read16_log a s)]
  rfl

/-- Settles O23: on a flat bus a read and a fetch answer `peek`, and a write changes it at its address alone. -/
theorem storesAreSeenByLaterReadsAndFetches : Obligations.StoresAreSeenByLaterReadsAndFetches := by
  intro s a b v h
  have hflat : (write8 a v s).FlatBus := h
  constructor
  · rw [read8_value, busAnswer_flat hflat, peek_write8]
  · rw [fetchByte_value, setPC_busAnswer, setPC_pc, busAnswer_flat hflat, peek_write8, if_pos rfl]

/-! ## The stack (R58, R60 to R63) -/

/-- R58: a stack byte's address as a number. -/
theorem stackAddr_toNat (sp : Byte) : (stackAddr sp).toNat = 0x100 + sp.toNat := by
  rw [stackAddr_eq, word16_toNat]; rfl

/-- R58: a stack byte lies in page 1. -/
theorem stackAddr_mem_page (sp : Byte) : 0x0100 ≤ stackAddr sp ∧ stackAddr sp ≤ 0x01FF := by
  have hsp : sp.toNat < 256 := sp.isLt
  rw [BitVec.le_def, BitVec.le_def, stackAddr_toNat]
  change 0x100 ≤ 0x100 + sp.toNat ∧ 0x100 + sp.toNat ≤ 0x1FF
  omega

/-- Settles O24: the address in the statement is `stackAddr`. -/
theorem pushAndPopStayInTheStackPage : Obligations.PushAndPopStayInTheStackPage := by
  intro s v
  refine ⟨push8_sp v s, ?_, fun a ha => ?_, pop8_sp s, ?_, peek_pop8 s, stackAddr_mem_page s.sp, by decide⟩
  · exact (peek_write8 _ v s _).trans (if_pos rfl)
  · exact (peek_write8 _ v s a).trans (if_neg ha)
  · exact busAnswer_eq_nthAnswer s _

/-- R62, R63: the two stack bytes of a word are two bytes, also where SP wraps. -/
theorem stackByte_ne_next (sp : Byte) : word16 1 sp ≠ word16 1 (sp - 1) := by
  intro h
  obtain ⟨-, hsp⟩ := word16_inj.1 h
  bv_omega

/-- R63: the log of a popped word. -/
@[simp] theorem pop16_log (s : State) : (pop16 s).2.log =
    .read (stackAddr (s.sp + 1 + 1)) ((pop8 s).2.busAnswer (stackAddr (s.sp + 1 + 1))) ::
    .read (stackAddr (s.sp + 1)) (s.busAnswer (stackAddr (s.sp + 1))) :: s.log := rfl

/-- R62, R63: a pop of a word gives SP back what a push of one took. -/
theorem pop16_push16_sp (v : Word) (s : State) : (pop16 (push16 v s)).2.sp = s.sp := by
  rw [pop16_sp, push16_sp, BitVec.sub_add_cancel, BitVec.sub_add_cancel]

/-- R62, R63: on a flat bus the word popped is the word pushed. -/
theorem pop16_push16_value {s : State} (h : s.FlatBus) (v : Word) : (pop16 (push16 v s)).1 = v := by
  have hflat : (push16 v s).FlatBus := h
  have hlo : peek (push16 v s) (word16 1 (s.sp - 1)) = v.lo := by rw [peek_push16, if_pos rfl]
  have hhi : peek (push16 v s) (word16 1 s.sp) = v.hi := by
    rw [peek_push16, if_neg (stackByte_ne_next s.sp), if_pos rfl]
  rw [pop16_answer, nthAnswer_flat hflat, nthAnswer_flat hflat, push16_sp, BitVec.sub_add_cancel,
    BitVec.sub_add_cancel, hlo, hhi, word16_hi_lo]

/-- R62, R63: the four transactions of a word pushed and popped, on any bus. -/
theorem pop16_push16_accesses (v : Word) (s : State) :
    (newAccesses s.log (pop16 (push16 v s)).2.log).map Access.shape =
      [(true, word16 1 s.sp), (true, word16 1 (s.sp - 1)), (false, word16 1 (s.sp - 1)), (false, word16 1 s.sp)] := by
  rw [newAccesses_of_append (new := [_, _, _, _]) (pop16_log (push16 v s))]
  simp [Access.shape, stackAddr_eq]

/-- Settles O25, from the value, SP and the transactions of the pair. -/
theorem popWordUndoesPushWord : Obligations.PopWordUndoesPushWord :=
  fun s v h => ⟨pop16_push16_value h v, pop16_push16_sp v s, pop16_push16_accesses v s⟩

end Sys2Proof.Machine
end

section
/-! SUPPORT. The family of 30_encoding.md: decoding against encoding, the opcode table as a map of its bytes, the
assembler text read back, and the proofs of its statements. -/

namespace Sys2Proof

/-! ## Decoding and encoding (R70, R72, R76) -/

/-- R70, R76: the bytes of an instruction decode to it, and what follows them is left. -/
theorem decode_encode (i : Instr) (rest : List Byte) : decode (encode i ++ rest) = .ok (i, rest) := by
  have hoperand : i.mode.takeOperand (i.operand.bytes ++ rest) = some (i.operand, rest) :=
    takeOperand_bytes i.operand rest
  simp [decode, encode, lookup_opcode, hoperand]

/-- R71: a mode has at most two operand bytes. -/
theorem operandBytes_le_two (m : Mode) : m.operandBytes ≤ 2 := by cases m <;> decide

/-- R74, R78: an instruction made from the row of an opcode byte has that opcode byte. -/
theorem opcode_of_lookup {op : Byte} {r : Row} {i : Instr} (h : lookup op = some r) (hm : i.mnemonic = r.mnemonic)
    (hmode : i.mode = r.mode) : i.opcode = op := by
  obtain ⟨hop, hrow, -⟩ := lookup_row h
  simp [Instr.opcode, hm, hmode, hrow, hop]

/-- What bytes that decode are made of: an opcode byte with a row, then an operand of the row's mode, and the
instruction is the one of the row's mnemonic and that operand. -/
theorem decode_ok {bs rest : List Byte} {i : Instr} (h : decode bs = .ok (i, rest)) :
    ∃ op r, lookup op = some r ∧ i.mnemonic = r.mnemonic ∧ i.mode = r.mode ∧ bs = op :: (i.operand.bytes ++ rest) := by
  unfold decode at h
  split at h
  · cases h
  · next op tail =>
    split at h
    · cases h
    · next r hr =>
      split at h
      · cases h
      · next o rest' ho =>
        split at h
        · cases h
        · next j hj =>
          cases h
          obtain ⟨hmode, rfl⟩ := takeOperand_some ho
          obtain ⟨hm, rfl⟩ := ofForm_some hj
          exact ⟨op, r, hr, hm, hmode, rfl⟩

/-- Settles O1: the decoder finds the row the encoder took the opcode byte from, and takes the operand bytes back. -/
theorem decodeOfEncodeIsTheInstruction : Obligations.DecodeOfEncodeIsTheInstruction := by
  intro i rest
  have hbytes := operandBytes_le_two i.mode
  refine ⟨decode_encode i rest, encode_length i, ?_, ?_⟩ <;> rw [Instr.length] <;> omega

/-- Settles O2: the bytes are an opcode byte, which is the instruction's, and its operand's bytes. -/
theorem encodeOfDecodeIsTheBytes : Obligations.EncodeOfDecodeIsTheBytes := by
  intro bs rest i h
  obtain ⟨op, r, hr, hm, hmode, rfl⟩ := decode_ok h
  rw [encode, opcode_of_lookup hr hm hmode, List.cons_append]

/-- Settles O3: each word is run through the decoder. -/
theorem sampleWordsDecode : Obligations.SampleWordsDecode := by
  unfold Obligations.SampleWordsDecode
  decide

/-! ## The table as a map of its opcode bytes (R74, R75, R78) -/

/-- R78: the opcode bytes of the table's rows are pairwise different. -/
theorem opcodeTable_nodup : (opcodeTable.map Row.opcode).Nodup := by decide +kernel

/-- R78: a table without a repeated opcode byte is built whole, row by row. -/
theorem buildTable_of_nodup {rows : List Row} (h : (rows.map Row.opcode).Nodup) : buildTable rows = some rows := by
  induction rows using List.reverseRecOn with
  | nil => rfl
  | append_singleton rows r ih =>
    rw [List.map_append, List.nodup_append] at h
    obtain ⟨hrows, -, hdisjoint⟩ := h
    have hnew : r.opcode ∉ rows.map Row.opcode := fun hmem => hdisjoint _ hmem _ (by simp) rfl
    rw [buildTable_concat, ih hrows]
    simpa [registerRow] using hnew

/-- R78: a row whose opcode byte the table has already is rejected. -/
theorem buildTable_concat_eq_none {rows : List Row} (h : (rows.map Row.opcode).Nodup) {r : Row}
    (hr : r.opcode ∈ rows.map Row.opcode) : buildTable (rows ++ [r]) = none := by
  rw [buildTable_concat, buildTable_of_nodup h, Option.bind_some, registerRow_eq_none]
  exact hr

/-- R74: every row of the table is found from its opcode byte. -/
theorem lookup_of_mem {r : Row} (h : r ∈ opcodeTable) : lookup r.opcode = some r := by
  have table : ∀ r ∈ opcodeTable, lookup r.opcode = some r := by decide +kernel
  exact table r h

/-- R74: a row found is a row of the table. -/
theorem mem_of_lookup {op : Byte} {r : Row} (h : lookup op = some r) : r ∈ opcodeTable := by
  obtain ⟨-, hrow, -⟩ := lookup_row h
  exact List.mem_of_find?_eq_some hrow

/-- Settles O4: the opcode bytes are pairwise different, and `lookup` finds the table's rows and no others. -/
theorem opcodeTableIsInjective : Obligations.OpcodeTableIsInjective := by
  refine ⟨by decide +kernel, opcodeTable_nodup, buildTable_of_nodup opcodeTable_nodup,
    fun r hr => buildTable_concat_eq_none opcodeTable_nodup hr, fun op r => ⟨fun h => ?_, fun ⟨hr, hop⟩ => ?_⟩⟩
  · exact ⟨mem_of_lookup h, (lookup_row h).1⟩
  · rw [← hop, lookup_of_mem hr]

/-- R75: a byte is unassigned exactly when it has no row. -/
theorem mem_unassignedBytes (op : Byte) : op ∈ unassignedBytes ↔ lookup op = none := by
  simp only [unassignedBytes, List.mem_filterMap, List.mem_range, Option.isNone_iff_eq_none, Option.ite_none_right_eq_some,
    Option.some.injEq]
  constructor
  · rintro ⟨n, -, h, rfl⟩
    exact h
  · intro h
    have hop : BitVec.ofNat 8 op.toNat = op := by simp
    exact ⟨op.toNat, op.isLt, by rwa [hop], hop⟩

/-- Settles O5: the list is computed from the table, and holds the bytes without a row. -/
theorem unassignedBytesAreThe105Listed : Obligations.UnassignedBytesAreThe105Listed :=
  ⟨by decide +kernel, fun op => (mem_unassignedBytes op).symm⟩

end Sys2Proof
end

section
/-! SUPPORT. Assembler text of 30_encoding.md section 5 (R77): what each reader makes of the text `instrText` writes. -/

namespace Sys2Proof.Machine

/-! ## Hexadecimal digits read back -/

/-- A digit is read as the number it was written from. -/
theorem hexValue_hexDigit {n : Nat} (h : n < 16) : hexValue (hexDigit n) = some n := by
  revert n; decide

theorem takeHex_hexDigit {v : Nat} (h : v < 16) (d n : Nat) (cs : List Char) :
    takeHex d n (hexDigit v :: cs) = takeHex (d + 1) (16 * n + v) cs := by
  rw [takeHex, hexValue_hexDigit h]

/-- The two digits of a byte, read on from `n`. -/
theorem takeHex_hex2 (d n : Nat) (b : Byte) (cs : List Char) :
    takeHex d n (hex2 b ++ cs) = takeHex (d + 2) (256 * n + b.toNat) cs := by
  have hb : b.toNat < 256 := b.isLt
  have hvalue : 16 * (16 * n + b.toNat / 16) + b.toNat % 16 = 256 * n + b.toNat := by omega
  simp only [hex2, List.cons_append, List.nil_append]
  rw [takeHex_hexDigit (by omega), takeHex_hexDigit (by omega), hvalue]

theorem word_toNat (w : Word) : w.toNat = w.hi.toNat * 256 + w.lo.toNat := by
  rw [← word16_toNat, word16_hi_lo]

/-- The four digits of a word, read on from `n`. -/
theorem takeHex_hex4 (d n : Nat) (w : Word) (cs : List Char) :
    takeHex d n (hex4 w ++ cs) = takeHex (d + 4) (65536 * n + w.toNat) cs := by
  have hvalue : 256 * (256 * n + w.hi.toNat) + w.lo.toNat = 65536 * n + w.toNat := by
    rw [word_toNat w]; omega
  rw [hex4, List.append_assoc, takeHex_hex2, takeHex_hex2, hvalue]

/-- Reading digits stops where no digit follows. -/
theorem takeHex_stop {cs : List Char} (h : cs.head?.bind hexValue = none) (d n : Nat) :
    takeHex d n cs = (d, n, cs) := by
  cases cs with
  | nil => rfl
  | cons c cs => rw [takeHex, show hexValue c = none from h]

/-- A byte's digits, with a text after them that starts with no digit. -/
theorem takeHex_byte (b : Byte) {cs : List Char} (h : cs.head?.bind hexValue = none) :
    takeHex 0 0 (hex2 b ++ cs) = (2, b.toNat, cs) := by
  rw [takeHex_hex2, takeHex_stop h]; simp

/-- A word's digits, with a text after them that starts with no digit. -/
theorem takeHex_word (w : Word) {cs : List Char} (h : cs.head?.bind hexValue = none) :
    takeHex 0 0 (hex4 w ++ cs) = (4, w.toNat, cs) := by
  rw [takeHex_hex4, takeHex_stop h]; simp

/-! ## The operand read back -/

theorem readOperandText_hash {d n : Nat} {cs : List Char} (h : takeHex 0 0 cs = (d, n, [])) :
    readOperandText ('#' :: '$' :: cs) = some (.imm d n) := by
  simp [readOperandText, h]

theorem readOperandText_paren {d n : Nat} {cs rest : List Char} (h : takeHex 0 0 cs = (d, n, rest)) :
    readOperandText ('(' :: '$' :: cs) = readIndirectEnd d n rest := by
  simp [readOperandText, h]

theorem readOperandText_dollar {d n : Nat} {cs rest : List Char} (h : takeHex 0 0 cs = (d, n, rest)) :
    readOperandText ('$' :: cs) = readDirectEnd d n rest := by
  simp [readOperandText, h]

/-- R77: what is written for an operand at an address: a byte with two digits, a word and a branch target with four. -/
def written (addr : Word) : Operand → Written
  | .acc => .a
  | .impl => .empty
  | .imm b => .imm 2 b.toNat
  | .zp b => .direct 2 b.toNat
  | .zpX b => .directX 2 b.toNat
  | .zpY b => .directY 2 b.toNat
  | .abs w => .direct 4 w.toNat
  | .absX w => .directX 4 w.toNat
  | .absY w => .directY 4 w.toNat
  | .ind w => .ind 4 w.toNat
  | .indX b => .indX 2 b.toNat
  | .indY b => .indY 2 b.toNat
  | .rel b => .direct 4 (addr + 2 + sext16 b).toNat

/-- The text of an operand is read as what is written for it. -/
theorem readOperandText_operandText (addr : Word) (o : Operand) :
    readOperandText (operandText addr o) = some (written addr o) := by
  have byteEnd (b : Byte) : takeHex 0 0 (hex2 b) = (2, b.toNat, []) := by simpa using takeHex_byte b (cs := []) rfl
  have wordEnd (w : Word) : takeHex 0 0 (hex4 w) = (4, w.toNat, []) := by simpa using takeHex_word w (cs := []) rfl
  cases o with
  | acc | impl => rfl
  | imm b => exact readOperandText_hash (byteEnd b)
  | zp b => exact readOperandText_dollar (byteEnd b)
  | zpX b | zpY b => exact readOperandText_dollar (takeHex_byte b (by decide))
  | abs w => exact readOperandText_dollar (wordEnd w)
  | absX w | absY w => exact readOperandText_dollar (takeHex_word w (by decide))
  | ind w => exact readOperandText_paren (takeHex_word w (by decide))
  | indX b | indY b => exact readOperandText_paren (takeHex_byte b (by decide))
  | rel b => exact readOperandText_dollar (wordEnd _)

/-! ## The operand selected -/

/-- R72: the low byte of a word, from its number. -/
theorem ofNat_toNat_lo (w : Word) : BitVec.ofNat 8 w.toNat = w.lo := by
  rw [BitVec.ofNat_toNat]; rfl

/-- R72: the high byte of a word, from its number. -/
theorem ofNat_toNat_hi (w : Word) : BitVec.ofNat 8 (w.toNat / 256) = w.hi := by
  apply BitVec.eq_of_toNat_eq
  have hlo : w.lo.toNat < 256 := w.lo.isLt
  have hhi : w.hi.toNat < 256 := w.hi.isLt
  rw [BitVec.toNat_ofNat, word_toNat w]
  omega

/-- R77: two digits select the zero-page mode of a mnemonic that has it. -/
theorem selectDirect_byte {m : Mnemonic} {zpMode : Mode} (h : zpMode ∈ legalModes m) (absMode : Mode) (b : Byte) :
    selectDirect m zpMode absMode 2 b.toNat = some (zpMode.assemble b 0) := by
  have hb : b.toNat < 256 := b.isLt
  by_cases habs : absMode ∈ legalModes m <;> simp [selectDirect, h, habs, hb]

/-- R77: four digits select the absolute mode of a mnemonic that has it, with or without the zero-page mode. -/
theorem selectDirect_word {m : Mnemonic} {absMode : Mode} (h : absMode ∈ legalModes m) (zpMode : Mode) (w : Word) :
    selectDirect m zpMode absMode 4 w.toNat = some (absMode.assemble w.lo w.hi) := by
  have hw : w.toNat < 65536 := w.isLt
  rw [selectDirect, ofNat_toNat_lo, ofNat_toNat_hi]
  by_cases hzp : zpMode ∈ legalModes m <;> simp [h, hzp, hw]

/-- R73, R77: the target of a branch byte gives that byte. -/
theorem branchOperand_target (addr : Word) (b : Byte) :
    branchOperand addr (addr + 2 + sext16 b) = some (.rel b) := by
  have hlo : Word.lo (sext16 b) = b := by revert b; decide +kernel
  have hdiff : addr + 2 + sext16 b - (addr + 2) = sext16 b := by
    rw [BitVec.add_comm, BitVec.add_sub_cancel]
  rw [branchOperand, hdiff, hlo, if_pos rfl]

/-- R74: a mnemonic with a branch row has no row of another mode. -/
theorem legalModes_of_rel {m : Mnemonic} (h : .rel ∈ legalModes m) : legalModes m = [.rel] := by
  revert h; cases m <;> decide

theorem rel_notMem_legalModes {m : Mnemonic} {mode : Mode} (h : mode ∈ legalModes m) (hmode : mode ≠ .rel) :
    .rel ∉ legalModes m := by
  intro hrel
  rw [legalModes_of_rel hrel, List.mem_singleton] at h
  exact hmode h

/-- R77: a number after a mnemonic that is no branch is in zero-page or absolute mode. -/
theorem selectOperand_direct {m : Mnemonic} {mode : Mode} (h : mode ∈ legalModes m) (hmode : mode ≠ .rel)
    (labels : List (List Char × Word)) (addr : Word) (d n : Nat) :
    selectOperand labels addr m (.direct d n) = selectDirect m .zp .abs d n :=
  if_neg (rel_notMem_legalModes h hmode)

/-- R77: what is written for a legal operand selects that operand. -/
theorem selectOperand_written (labels : List (List Char × Word)) (addr : Word) {m : Mnemonic} {o : Operand}
    (h : o.mode ∈ legalModes m) : selectOperand labels addr m (written addr o) = some o := by
  cases o <;> rw [Operand.mode] at h <;> rw [written]
  case acc => rfl
  case impl => exact if_pos h
  case imm b | indX b | indY b =>
    have hb : b.toNat < 256 := b.isLt
    simp [selectOperand, hb]
  case ind w => simp [selectOperand]
  case zp b => rw [selectOperand_direct h nofun, selectDirect_byte h, Mode.assemble]
  case zpX b | zpY b => rw [selectOperand, selectDirect_byte h, Mode.assemble]
  case abs w => rw [selectOperand_direct h nofun, selectDirect_word h, Mode.assemble, word16_hi_lo]
  case absX w | absY w => rw [selectOperand, selectDirect_word h, Mode.assemble, word16_hi_lo]
  case rel b =>
    rw [selectOperand, if_pos h, if_pos rfl, BitVec.ofNat_toNat, BitVec.setWidth_eq, branchOperand_target]

/-! ## The statement split -/

/-- R77: no two mnemonics have one name. -/
theorem find_mnemonicText (m : Mnemonic) :
    allMnemonics.find? (fun k => mnemonicText k == mnemonicText m) = some m := by
  cases m <;> decide

theorem mnemonicText_length (m : Mnemonic) : (mnemonicText m).length = 3 := by cases m <;> rfl

/-- A statement's first three characters are its mnemonic, where they are a mnemonic's name. -/
theorem splitStatement_append (m : Mnemonic) (cs : List Char) : splitStatement (mnemonicText m ++ cs) =
    if cs = [] then some (m, []) else if cs.take 1 = [' '] then some (m, cs.tail) else none := by
  have hname : (mnemonicText m ++ cs).take 3 = mnemonicText m := List.take_left' (mnemonicText_length m)
  have htail : (mnemonicText m ++ cs).drop 3 = cs := List.drop_left' (mnemonicText_length m)
  have htext : (mnemonicText m ++ cs).drop 4 = cs.tail := by
    rw [← htail, List.tail_drop, htail]
  rw [splitStatement, hname, find_mnemonicText, Option.bind_some, htail, htext]

/-- R77: a statement is its mnemonic's name alone, or the name, a space and the operand. -/
theorem splitStatement_instrText (addr : Word) (i : Instr) :
    splitStatement (instrText addr i) = some (i.mnemonic, operandText addr i.operand) := by
  unfold instrText
  cases operandText addr i.operand with
  | nil => simpa using splitStatement_append i.mnemonic []
  | cons c cs => simp [splitStatement_append]

/-- Settles O6: the statement is split, its operand's text read and the operand selected, each back to what it was
written from. -/
theorem assemblingASpellingGivesTheInstruction : Obligations.AssemblingASpellingGivesTheInstruction := by
  intro i addr labels
  rw [assemble, splitStatement_instrText, Option.bind_some]
  simp [readOperandText_operandText, selectOperand_written labels addr (mode_legal i)]

end Sys2Proof.Machine
end

section
/-! SUPPORT. The family of 40_execution_control.md, sections 3 and 4: the resolver, the operand value, the extra cycles
and the ALU's flags, and the proofs of their statements. -/

namespace Sys2Proof.Machine

/-! ## The effective address (R105 to R115) -/

/-- R112, R113, R114: a pointer read one byte after the other is the word of the bus's next two answers. -/
theorem word16_busAnswers (a b : Word) (s : State) :
    word16 ((read8 a s).2.busAnswer b) (s.busAnswer a) = word16 (s.nthAnswer 1 b) (s.nthAnswer 0 a) := by
  rw [busAnswer_eq_nthAnswer, busAnswer_eq_nthAnswer, read8_nthAnswer]

/-- R113, R114: a zero-page pointer's slots wrap within page 0. -/
theorem readZeroPagePointer_value (t : Byte) (s : State) : (readZeroPagePointer t s).1 =
    word16 (s.nthAnswer 1 (word16 0 (t + 1))) (s.nthAnswer 0 (word16 0 t)) := by
  rw [← word16_busAnswers, ← zext16_eq, ← zext16_eq]; rfl

/-- R115: a branch target is the exact signed sum, brought into 16 bits. -/
theorem add_sext16 (w : Word) (b : Byte) : w + sext16 b = BitVec.ofInt 16 (w.toInt + b.toInt) := by
  rw [BitVec.ofInt_add, BitVec.ofInt_toInt]; rfl

/-- R105: a mode that is no pointer mode reads no byte of the bus. -/
theorem resolve_state_of_notMem {o : Operand} (h : o.mode ∉ [Mode.ind, .indX, .indY]) (s : State) :
    (resolve o s).state = s := by
  revert h
  cases o
  case ind | indX | indY => exact fun h => absurd (by simp [Operand.mode]) h
  all_goals exact fun _ => rfl

/-- Settles O26, mode by mode. -/
theorem resolverComputesTheEffectiveAddress : Obligations.ResolverComputesTheEffectiveAddress := by
  intro b w s
  refine ⟨rfl, rfl, ?_, fun o ho => resolve_state_of_notMem ho s, rfl, ?zp, ?zpX, ?zpY, rfl, ?absX, ?absY, ?ind, ?indX,
    ?indY, ?rel⟩
  · rintro o (rfl | rfl) <;> exact ⟨rfl, rfl⟩
  case zp => exact congrArg some (zext16_eq b)
  case zpX => exact congrArg some (zext16_eq (b + s.x))
  case zpY => exact congrArg some (zext16_eq (b + s.y))
  case absX => rw [← zext16_eq]; rfl
  case absY => rw [← zext16_eq]; rfl
  case ind => exact congrArg some (resolve_ind_target w s)
  case indX => exact congrArg some (readZeroPagePointer_value (b + s.x) s)
  case indY => rw [← readZeroPagePointer_value, ← zext16_eq]; rfl
  case rel => exact congrArg some (add_sext16 s.pc b)

/-! ## The operand value (R107, R123) -/

theorem operand_of_mode_acc {i : Instr} (h : i.mode = .acc) : i.operand = .acc := by
  unfold Instr.mode at h
  cases ho : i.operand <;> rw [ho] at h <;> cases h

theorem operand_of_mode_imm {i : Instr} (h : i.mode = .imm) : ∃ b, i.operand = .imm b := by
  unfold Instr.mode at h
  cases ho : i.operand <;> rw [ho] at h <;> cases h
  exact ⟨_, rfl⟩

/-- Settles O27: in memory the value is the answer that follows the pointer reads. -/
theorem operandValueIsOneReadAtTheEffectiveAddress : Obligations.OperandValueIsOneReadAtTheEffectiveAddress := by
  intro i s
  refine ⟨fun b hb => by rw [operandOf, hb]; rfl, fun hacc => by rw [operandOf, operand_of_mode_acc hacc]; rfl,
    fun himm hclass => ?_⟩
  obtain ⟨hacc, himpl, -⟩ := operandClass_mode (hclass.imp_right .inr)
  rw [operandOf_mem himm hacc himpl, busAnswer_eq_nthAnswer,
    nthAnswer_congr _ (resolve_answers i.operand s) (peek_resolve i.operand s _), Nat.add_zero]

/-! ## Page crosses and extra cycles (R116, R126, R127) -/

/-- Settles O28: the indexed modes compare their effective address with their base, and no other mode has a base. -/
theorem pageCrossComparesHighBytes : Obligations.PageCrossComparesHighBytes := by
  intro o s
  refine ⟨?_, ?_, ?_, ?_⟩
  · cases o
    case absX | absY | indY => exact fun _ => ⟨_, _, rfl, rfl, pageCrossed_iff _ _⟩
    all_goals exact fun h => absurd h (by simp [Operand.mode])
  · cases o
    case absX | absY | indY => exact fun h => absurd (by simp [Operand.mode]) h
    all_goals exact fun _ => rfl
  · rintro w (rfl | rfl) <;> rfl
  · rintro b rfl
    exact congrArg some (readZeroPagePointer_value b s)

/-- Settles O29: a branch's extra cycle for another page is the page-cross test, which compares high bytes. -/
theorem extrasAreThoseOfPageCrossesAndBranches : Obligations.ExtrasAreThoseOfPageCrossesAndBranches := by
  refine ⟨fun i c => ?_, fun taken pcNext target => ?_⟩
  · simp only [pageCrossPenalty, List.mem_cons, List.not_mem_nil, or_false]
  · cases taken
    · rfl
    · simp only [branchExtra, pageCrossed_iff, if_true, Bool.true_eq_false, if_false]

/-! ## Zero and Negative, and the addition (R117, R118) -/

/-- Settles O31: the two flags are `setZN_flag`'s, and bit 7 of a byte is its upper half. -/
theorem setZNWritesZAndNOnly : Obligations.SetZNWritesZAndNOnly := by
  intro v s
  have hbit7 : v.getLsbD 7 = true ↔ 0x80 ≤ v := by
    rw [← BitVec.msb_eq_getLsbD_last v, BitVec.msb_eq_decide, decide_eq_true_iff]; rfl
  have hflags : SameFlagsExcept [.Z, .N] s (s.setZN v) := fun f hf => by
    simp only [List.mem_cons, List.not_mem_nil, or_false, not_or] at hf
    rw [setZN_flag, if_neg hf.1, if_neg hf.2]
  have hframe : ChangesOnly [] [.Z, .N] [] s (s.setZN v) :=
    ⟨fun r _ => setZN_reg s v r, hflags, sameMem_of_ram (setZN_ram s v) [], rfl, rfl⟩
  exact ⟨by simp [setZN_flag], by rw [setZN_flag]; exact hbit7, hframe, setZN_log s v⟩

/-- R118: the result of an addition. -/
theorem aluAdd_toNat (a m : Byte) (cin : Bool) :
    (aluAdd a m cin).1.toNat = (a.toNat + m.toNat + cin.toNat) % 256 := by
  simp [aluAdd]

/-- R118: the carry of an addition. -/
theorem aluAdd_carry (a m : Byte) (cin : Bool) :
    (aluAdd a m cin).2.1 = true ↔ 255 < a.toNat + m.toNat + cin.toNat := by
  simp [aluAdd]

/-- R118: the overflow of an addition, by the sign bits. -/
theorem aluAdd_overflow (a m : Byte) (cin : Bool) :
    (aluAdd a m cin).2.2 = true ↔ a.msb = m.msb ∧ (aluAdd a m cin).1.msb ≠ a.msb := by
  have hbits : (aluAdd a m cin).2.2 = (!(a.msb ^^ m.msb) && (a.msb ^^ (aluAdd a m cin).1.msb)) := by
    simp [aluAdd, BitVec.msb_eq_getLsbD_last]
  rw [hbits]
  generalize a.msb = x, m.msb = y, (aluAdd a m cin).1.msb = z
  revert x y z; decide

/-- The sign bit of a byte, as a comparison. -/
theorem byte_msb (v : Byte) : v.msb = decide (128 ≤ v.toNat) := BitVec.msb_eq_decide v

/-- The signed value of a byte, by the same comparison. -/
theorem byte_toInt (v : Byte) : v.toInt = v.toNat - if 128 ≤ v.toNat then 256 else 0 := by
  have h := BitVec.toInt_eq_toNat_cond v
  omega

/-- Settles O32: with the sign bits as comparisons with 128, signed overflow is linear arithmetic on the operands. -/
theorem additionOverflowIsSignedOverflow : Obligations.AdditionOverflowIsSignedOverflow := by
  intro a m cin
  refine ⟨aluAdd_toNat a m cin, aluAdd_carry a m cin, ?_, aluAdd_overflow a m cin⟩
  have ha : a.toNat < 256 := a.isLt
  have hm : m.toNat < 256 := m.isLt
  have hcin : cin.toNat ≤ 1 := Bool.toNat_le cin
  rw [aluAdd_overflow, byte_msb, byte_msb, byte_msb, aluAdd_toNat, ne_eq, decide_eq_decide, decide_eq_decide,
    byte_toInt, byte_toInt]
  omega

/-! ## Where memory changes -/

/-- R60: a byte that a push changes is the stack byte SP designates. -/
theorem eq_of_peek_push8_ne {v : Byte} {s : State} {a : Word} (h : peek (push8 v s) a ≠ peek s a) :
    a = word16 1 s.sp := by
  by_contra hne
  exact h (by rw [peek_push8, if_neg hne])

/-- R62: a byte that a pushed word changes is one of two stack bytes. -/
theorem eq_of_peek_push16_ne {w : Word} {s : State} {a : Word} (h : peek (push16 w s) a ≠ peek s a) :
    a = word16 1 s.sp ∨ a = word16 1 (s.sp - 1) := by
  by_contra hne
  rw [not_or] at hne
  exact h (by rw [peek_push16, if_neg hne.2, if_neg hne.1])

/-- Settles O60, by the five cases of RAM after an instruction. -/
theorem memoryChangesOnlyWhereInstructionsStore : Obligations.MemoryChangesOnlyWhereInstructionsStore := by
  intro i s t a h hne
  obtain hr | ⟨hclass, v, hr⟩ | ⟨hm, v, hr⟩ | ⟨hm, w, hr⟩ | ⟨hm, v, w, hr⟩ := exec_ram h <;>
    rw [peek_congr hr] at hne
  · exact absurd rfl hne
  · refine .inl ⟨hclass, ?_⟩
    by_contra hea
    exact hne (by rw [peek_write8, if_neg hea])
  · exact .inr (.inl ⟨by revert hm; generalize i.mnemonic = m; cases m <;> decide, eq_of_peek_push8_ne hne⟩)
  · obtain ha | ha := eq_of_peek_push16_ne hne
    · exact .inr (.inl ⟨by rw [hm]; decide, ha⟩)
    · exact .inr (.inr (.inl ⟨by rw [hm]; decide, ha⟩))
  · by_cases ha : a = word16 1 (s.sp - 2)
    · exact .inr (.inr (.inr ⟨hm, ha⟩))
    · rw [peek_push8, push16_sp, sub_one_sub_one, if_neg ha] at hne
      obtain ha | ha := eq_of_peek_push16_ne hne
      · exact .inr (.inl ⟨by rw [hm]; decide, ha⟩)
      · exact .inr (.inr (.inl ⟨by rw [hm]; decide, ha⟩))

end Sys2Proof.Machine
end

section
/-! SUPPORT. The family of 40_execution_control.md, section 5: the instruction a step runs, its cost, its bus accesses
in order, and the proofs of their statements. -/

namespace Sys2Proof.Machine

/-! ## The instruction a step runs (R100, R124) -/

/-- The byte at PC is the opcode byte of an instruction whose bytes the bus answers there. -/
theorem busAnswer_pc_of_fetchBytes {i : Instr} {s : State} (h : (fetchBytes i.length s).1 = encode i) :
    s.busAnswer s.pc = i.opcode := by
  rw [Instr.length, Nat.add_comm] at h
  exact (List.cons.inj h).1

/-- R76, R102: the opcode byte fixes the length, so the bytes the bus answers at PC encode one instruction. -/
theorem instr_unique_of_fetchBytes {i j : Instr} {s : State} (hi : (fetchBytes i.length s).1 = encode i)
    (hj : (fetchBytes j.length s).1 = encode j) : i = j := by
  have hop : i.opcode = j.opcode := (busAnswer_pc_of_fetchBytes hi).symm.trans (busAnswer_pc_of_fetchBytes hj)
  have hrow := lookup_opcode i
  rw [hop, lookup_opcode j] at hrow
  have hlen : i.length = j.length := by
    rw [Instr.length, Instr.length, (Row.mk.inj (Option.some.inj hrow)).2.2.1]
  have hbytes : encode i = encode j := by rw [← hi, ← hj, hlen]
  have hdec := decode_encode i []
  rw [hbytes, decode_encode] at hdec
  cases hdec
  rfl

/-- R124: what a step answers of the instruction it runs is the instruction's outcome. -/
theorem runInstr_outcome (i : Instr) (s : State) : (runInstr i s).outcome = exec i s := by
  obtain ⟨t, ht⟩ := exec_next i s
  rw [runInstr_eq ht, ht]; rfl

/-- R124: a step of a live core runs the instruction whose encoding the bus answers at PC. -/
theorem step_of_fetchBytes {i : Instr} {s : State} (hs : s.Live) (h : (fetchBytes i.length s).1 = encode i) :
    step s = exec i (fetchBytes i.length s).2 := by
  rw [step, stepCall_live hs]
  obtain ⟨hnone, -⟩ | ⟨j, hj, hrun⟩ := fetchAndRun_cases s
  · rw [busAnswer_pc_of_fetchBytes h, lookup_opcode] at hnone
    cases hnone
  · rw [hrun, runInstr_outcome, instr_unique_of_fetchBytes hj h]

/-- Bytes that decode to an instruction, with none left, are its encoding. -/
theorem eq_encode_of_decode {bs : List Byte} {i : Instr} (h : decode bs = .ok (i, [])) : bs = encode i := by
  rw [encodeOfDecodeIsTheBytes bs [] i h, List.append_nil]

/-- Settles O7: the step runs the instruction that the bytes encode, and `fetchBytes_eq` is the fetch. -/
theorem stepRunsTheDecodedInstruction : Obligations.StepRunsTheDecodedInstruction := by
  intro i s hs h
  exact ⟨step_of_fetchBytes hs (eq_encode_of_decode h), by rw [fetchBytes_eq], by rw [fetchBytes_eq]⟩

/-! ## The cost of a step (R125 to R129) -/

/-- R126: a page cross costs one cycle, and only an instruction of the read class pays it. -/
theorem pageCrossPenalty_cases (i : Instr) (crossed : Bool) :
    pageCrossPenalty i crossed = 0 ∨ (i.operandClass = .read ∧ pageCrossPenalty i crossed = 1) := by
  unfold pageCrossPenalty
  split
  · next h => exact .inr ⟨h.1, rfl⟩
  · exact .inl rfl

/-- R127: a branch costs at most two extra cycles. -/
theorem branchExtra_le_two (taken : Bool) (pcNext target : Word) : branchExtra taken pcNext target ≤ 2 := by
  unfold branchExtra
  split
  · split <;> decide
  · decide

/-- R74, R311: an instruction's base count lies in 2 to 7, is 2 for a branch and at most 6 for a read. -/
theorem baseCycles_bounds (i : Instr) :
    2 ≤ i.baseCycles ∧ i.baseCycles ≤ 7 ∧ (i.operandClass = .branch → i.baseCycles = 2) ∧
    (i.operandClass = .read → i.baseCycles ≤ 6) := by
  obtain ⟨-, -, -, hbounds⟩ := lookup_row (lookup_opcode i)
  exact hbounds

/-- R128, R129: an instruction costs 2 to 7 cycles, since a base count leaves room for its extras. -/
theorem exec_cycles_bounds {i : Instr} {s t : State} (h : exec i s = .next t) :
    ∃ n, t.cycles = s.cycles + n ∧ 2 ≤ n ∧ n ≤ 7 := by
  obtain ⟨hlow, hhigh, hbranch, hread⟩ := baseCycles_bounds i
  obtain hc | hc | ⟨hclass, taken, hc⟩ := exec_cycles h
  · refine ⟨costOf i s, hc, ?_⟩
    unfold costOf
    obtain hp | ⟨hclass, hp⟩ := pageCrossPenalty_cases i (resolve i.operand s).crossed
    · rw [hp]; exact ⟨hlow, hhigh⟩
    · have := hread hclass
      rw [hp]; omega
  · exact ⟨i.baseCycles, hc, hlow, hhigh⟩
  · refine ⟨_, hc, ?_⟩
    rw [hbranch hclass]
    have := branchExtra_le_two taken s.pc (effAddr i s)
    omega

/-- R100, R128: a fetch leaves the counter. -/
theorem fetchBytes_cycles (n : Nat) (s : State) : (fetchBytes n s).2.cycles = s.cycles := by rw [fetchBytes_eq]

/-- R100: a fetch leaves a live core live. -/
theorem fetchBytes_live {s : State} (h : s.Live) (n : Nat) : (fetchBytes n s).2.Live := by rw [fetchBytes_eq]; exact h

/-- An instruction leaves a live core live. -/
theorem exec_live {i : Instr} {s t : State} (hs : s.Live) (h : exec i s = .next t) : t.Live := by
  obtain ⟨hcreated, hfault⟩ := exec_latch h
  exact ⟨hcreated.trans hs.1, hfault.trans hs.2⟩

/-- Settles O8, by the cases of `step()`. -/
theorem stepCostsTwoToSevenCycles : Obligations.StepCostsTwoToSevenCycles := by
  constructor
  · intro s t h
    unfold step at h
    obtain ⟨-, hr⟩ | ⟨r, -, -, hr⟩ | ⟨-, -, hr⟩ | ⟨hs, i, u, -, hexec, hr⟩ := stepCall_cases s <;>
      rw [hr] at h <;> cases h
    obtain ⟨n, hn, hlow, hhigh⟩ := exec_cycles_bounds hexec
    have hcost : t.cycles - (fetchBytes i.length s).2.cycles = n := by rw [hn, Nat.add_sub_cancel_left]
    rw [fetchBytes_cycles] at hn
    exact ⟨n, by rw [hr, hcost], hlow, hhigh, hn, hs, exec_live (fetchBytes_live hs _) hexec⟩
  · intro s t f h
    obtain ⟨-, hr⟩ | ⟨r, -, -, hr⟩ | ⟨-, -, hr⟩ | ⟨-, i, u, -, -, hr⟩ := stepCall_cases s <;>
      rw [hr] at h <;> cases h <;> rfl

/-! ## The bus accesses of each operation, in order (R56, R131) -/

/-- From `s` to `t` exactly the listed transactions are made, oldest first. -/
def Transacts (l : List (Bool × Word)) (s t : State) : Prop :=
  ∃ new, t.log = new ++ s.log ∧ new.reverse.map Access.shape = l

/-- Equal logs: no transaction. -/
theorem Transacts.of_log_eq {s t : State} (h : t.log = s.log) : Transacts [] s t := ⟨[], h, rfl⟩

/-- Transactions see the log of the later state alone. -/
theorem Transacts.congr {l : List (Bool × Word)} {s t u : State} (h : Transacts l s t) (hu : u.log = t.log) :
    Transacts l s u := by
  obtain ⟨new, hlog, hshape⟩ := h
  exact ⟨new, hu.trans hlog, hshape⟩

theorem Transacts.trans {l k : List (Bool × Word)} {s t u : State} (h : Transacts l s t) (h' : Transacts k t u) :
    Transacts (l ++ k) s u := by
  obtain ⟨new, hlog, rfl⟩ := h
  obtain ⟨new', hlog', rfl⟩ := h'
  exact ⟨new' ++ new, by rw [hlog', hlog, List.append_assoc], by rw [List.reverse_append, List.map_append]⟩

/-- R56: the transactions are those that `newAccesses` finds, and the earlier log is the later one's end. -/
theorem Transacts.newAccesses_eq {l : List (Bool × Word)} {s t : State} (h : Transacts l s t) :
    (newAccesses s.log t.log).map Access.shape = l ∧ s.log <:+ t.log := by
  obtain ⟨new, hlog, hshape⟩ := h
  exact ⟨by rw [newAccesses_of_append hlog, hshape], new, hlog.symm⟩

theorem read8_transacts (a : Word) (s : State) : Transacts [(false, a)] s (read8 a s).2 := ⟨[_], read8_log a s, rfl⟩

theorem write8_transacts (a : Word) (v : Byte) (s : State) : Transacts [(true, a)] s (write8 a v s) :=
  ⟨[_], write8_log a v s, rfl⟩

theorem read16_transacts (a : Word) (s : State) : Transacts [(false, a), (false, a + 1)] s (read16 a s).2 :=
  ⟨[_, _], read16_log a s, rfl⟩

/-- R60: a push writes the stack byte SP designates. -/
theorem push8_transacts (v : Byte) (s : State) : Transacts [(true, word16 1 s.sp)] s (push8 v s) := by
  rw [← stackAddr_eq]; exact write8_transacts (stackAddr s.sp) v s

/-- R61: a pop reads the stack byte above SP. -/
theorem pop8_transacts (s : State) : Transacts [(false, word16 1 (s.sp + 1))] s (pop8 s).2 := by
  rw [← stackAddr_eq]; exact read8_transacts (stackAddr (s.sp + 1)) (s.setSP (s.sp + 1))

/-- R62: a pushed word is two pushes. -/
theorem push16_transacts (w : Word) (s : State) :
    Transacts [(true, word16 1 s.sp), (true, word16 1 (s.sp - 1))] s (push16 w s) :=
  (push8_transacts w.hi s).trans (push8_transacts w.lo (push8 w.hi s))

/-- R63: a popped word is two pops. -/
theorem pop16_transacts (s : State) :
    Transacts [(false, word16 1 (s.sp + 1)), (false, word16 1 (s.sp + 2))] s (pop16 s).2 := by
  rw [← add_one_add_one]
  exact (pop8_transacts s).trans (pop8_transacts (pop8 s).2)

/-- R254, R277: interrupt entry pushes three bytes and reads its vector. -/
theorem enterInterrupt_transacts (r : Word) (v : Byte) (w : Word) (s : State) :
    Transacts [(true, word16 1 s.sp), (true, word16 1 (s.sp - 1)), (true, word16 1 (s.sp - 2)), (false, w),
      (false, w + 1)] s (enterInterrupt r v w s) := by
  have hstatus := push8_transacts v (push16 r s)
  rw [push16_sp, sub_one_sub_one] at hstatus
  have hpushes := ((push16_transacts r s).trans hstatus).congr (setFlag_log (push8 v (push16 r s)) .I true)
  exact (hpushes.trans (read16_transacts w _)).congr (by rw [enterInterrupt_eq, setPC_log])

/-- R255: return from interrupt pops three bytes. -/
theorem returnFromInterrupt_transacts (s : State) :
    Transacts [(false, word16 1 (s.sp + 1)), (false, word16 1 (s.sp + 2)), (false, word16 1 (s.sp + 3))]
      s (returnFromInterrupt s) := by
  have hpc := pop16_transacts ((pop8 s).2.setP (pop8 s).1)
  rw [setP_sp, pop8_sp, add_one_add_one, show s.sp + 1 + 2 = s.sp + 3 by bv_omega] at hpc
  exact (((pop8_transacts s).congr (setP_log _ _)).trans hpc).congr (by rw [returnFromInterrupt_eq, setPC_log])

/-- R105, R131: the resolver reads the pointer bytes and nothing else. -/
theorem resolve_transacts (o : Operand) (s : State) :
    Transacts ((pointerReads o s).map fun a => (false, a)) s (resolve o s).state := by
  have two : ∀ a b : Word, Transacts [(false, a), (false, b)] s (read8 b (read8 a s).2).2 := fun a b =>
    (read8_transacts a s).trans (read8_transacts b (read8 a s).2)
  cases o
  case ind w => rw [pointerReads, ← indirectHighAddr_eq]; exact two w (indirectHighAddr w)
  case indX b => rw [pointerReads, ← zext16_eq, ← zext16_eq]; exact two (zext16 (b + s.x)) (zext16 (b + s.x + 1))
  case indY b => rw [pointerReads, ← zext16_eq, ← zext16_eq]; exact two (zext16 b) (zext16 (b + 1))
  all_goals exact .of_log_eq rfl

/-! ## The bus accesses of each instruction shape -/

/-- The accesses of an instruction run in a state whose PC is past it: the pointer reads, the class accesses, and the
instruction's own (R131). -/
def execAccesses (i : Instr) (s : State) : List (Bool × Word) :=
  (pointerReads i.operand s).map (fun a => (false, a)) ++ classAccesses i (effAddr i s) ++ ownAccesses i.mnemonic s.sp

/-- R131: only instructions without an operand class and the jumps have accesses of their own. -/
theorem ownAccesses_eq_nil {i : Instr} (hnone : i.operandClass ≠ .none) (hjump : i.operandClass ≠ .jump) (sp : Byte) :
    ownAccesses i.mnemonic sp = [] := by
  unfold Instr.operandClass at hnone hjump
  revert hnone hjump
  generalize i.mnemonic = m
  cases m
  case pha | php | pla | plp | rts | brk | rti => exact fun h => absurd rfl h
  case jsr => exact fun _ h => absurd rfl h
  all_goals exact fun _ _ => rfl

/-- R112 to R114: the modes without a pointer. -/
theorem pointerReads_of_notMem {o : Operand} (h : o.mode ∉ [Mode.ind, .indX, .indY]) (s : State) :
    pointerReads o s = [] := by
  revert h
  cases o
  case ind | indX | indY => exact fun h => absurd (by simp [Operand.mode]) h
  all_goals exact fun _ => rfl

/-- R104: an instruction without an operand class is Implied. -/
theorem mode_of_operandClass_none {i : Instr} (h : i.operandClass = .none) : i.mode = .impl := by
  have table : ∀ m, ∀ mode ∈ legalModes m, m.operandClass mode = .none → mode = .impl := by
    intro m
    cases m <;> decide
  exact table i.mnemonic i.mode (mode_legal i) h

/-- R123: the class read follows the pointer reads; an Immediate operand is not read again. -/
theorem afterOperand_transacts {i : Instr} (hacc : i.mode ≠ .acc) (himpl : i.mode ≠ .impl) (s : State) :
    Transacts ((pointerReads i.operand s).map (fun a => (false, a)) ++
      if i.mode = .imm then [] else [(false, effAddr i s)]) s (afterOperand i s) := by
  by_cases himm : i.mode = .imm
  · obtain ⟨b, hb⟩ := operand_of_mode_imm himm
    rw [if_pos himm, afterOperand, hb]
    exact .of_log_eq rfl
  · rw [if_neg himm, afterOperand_mem himm hacc himpl]
    exact (resolve_transacts i.operand s).trans (read8_transacts (effAddr i s) _)

section
variable {i : Instr} {s t : State}

theorem readClass_transacts {f : Byte → State → State} (hclass : i.operandClass = .read)
    (h : readClass i f s = .next t) (hf : ∀ m u, (f m u).log = u.log) : Transacts (execAccesses i s) s t := by
  obtain ⟨hacc, himpl, -⟩ := operandClass_mode (.inl hclass)
  have hlist : execAccesses i s = (pointerReads i.operand s).map (fun a => (false, a)) ++
      if i.mode = .imm then [] else [(false, effAddr i s)] := by
    simp [execAccesses, classAccesses, hclass, ownAccesses_eq_nil]
  rw [readClass_eq] at h; cases h
  rw [hlist]
  exact (afterOperand_transacts hacc himpl s).congr (hf _ _)

theorem writeClass_transacts {v : Byte} (hclass : i.operandClass = .write) (h : writeClass i v s = .next t) :
    Transacts (execAccesses i s) s t := by
  obtain ⟨hacc, himpl, -⟩ := operandClass_mode (.inr (.inl hclass))
  have hlist : execAccesses i s = (pointerReads i.operand s).map (fun a => (false, a)) ++ [(true, effAddr i s)] := by
    simp [execAccesses, classAccesses, hclass, ownAccesses_eq_nil]
  rw [writeClass_eq, storeOperand_mem hacc himpl] at h; cases h
  rw [hlist]
  exact ((resolve_transacts i.operand s).trans (write8_transacts (effAddr i s) v _)).congr rfl

/-- R123: a read-modify-write reads at the effective address and then writes there. -/
theorem storeOperand_afterOperand_transacts (hclass : i.operandClass = .rmw) (v : Byte) :
    Transacts (execAccesses i s) s (storeOperand (resolve i.operand s).ea v (afterOperand i s)) := by
  obtain ⟨hacc, himpl, himm⟩ := operandClass_mode (.inr (.inr hclass))
  have himm : i.mode ≠ .imm := himm.resolve_left (by rw [hclass]; decide)
  have hread := afterOperand_transacts hacc himpl s
  have hlist : execAccesses i s = (pointerReads i.operand s).map (fun a => (false, a)) ++ [(false, effAddr i s)] ++
      [(true, effAddr i s)] := by
    simp [execAccesses, classAccesses, hclass, ownAccesses_eq_nil]
  rw [if_neg himm] at hread
  rw [hlist, storeOperand_mem hacc himpl]
  exact hread.trans (write8_transacts (effAddr i s) v _)

/-- R180: a shift of A makes no access. -/
theorem storeOperand_acc_transacts (hclass : i.operandClass = .accumulator) (hacc : i.mode = .acc) (v : Byte) :
    Transacts (execAccesses i s) s (storeOperand (resolve i.operand s).ea v (afterOperand i s)) := by
  have ho : i.operand = .acc := operand_of_mode_acc hacc
  have hlog : (afterOperand i s).log = s.log := by rw [afterOperand, ho]; rfl
  have hlist : execAccesses i s = [] := by
    simp [execAccesses, classAccesses, hclass, ownAccesses_eq_nil, pointerReads, ho]
  rw [hlist, storeOperand_acc hacc]
  exact .of_log_eq hlog

theorem shiftClass_transacts {alu : Byte → Bool → Byte × Bool}
    (hclass : i.operandClass = if i.mode = .acc then .accumulator else .rmw) (h : shiftClass i alu s = .next t) :
    Transacts (execAccesses i s) s t := by
  rw [shiftClass_eq] at h; cases h
  by_cases hacc : i.mode = .acc
  · rw [if_pos hacc] at hclass
    exact (storeOperand_acc_transacts hclass hacc _).congr (by rw [addCycles_log, setZN_log, setFlag_log])
  · rw [if_neg hacc] at hclass
    exact (storeOperand_afterOperand_transacts hclass _).congr (by rw [addCycles_log, setZN_log, setFlag_log])

theorem incDecClass_transacts {alu : Byte → Byte} (hclass : i.operandClass = .rmw) (h : incDecClass i alu s = .next t) :
    Transacts (execAccesses i s) s t := by
  rw [incDecClass_eq] at h; cases h
  exact (storeOperand_afterOperand_transacts hclass _).congr (by rw [addCycles_log, setZN_log])

theorem impliedClass_transacts {f : State → State} (hclass : i.operandClass = .none)
    (h : impliedClass i f s = .next t) (hf : Transacts (ownAccesses i.mnemonic s.sp) s (f s)) :
    Transacts (execAccesses i s) s t := by
  have hmode : i.operand.mode = .impl := mode_of_operandClass_none hclass
  have hlist : execAccesses i s = ownAccesses i.mnemonic s.sp := by
    simp [execAccesses, classAccesses, hclass, pointerReads_of_notMem, hmode]
  rw [impliedClass_eq] at h; cases h
  rw [hlist]
  exact hf.congr rfl

theorem branchClass_transacts {cond : Bool} (hclass : i.operandClass = .branch) (h : branchClass i cond s = .next t) :
    Transacts (execAccesses i s) s t := by
  have hlist : execAccesses i s = (pointerReads i.operand s).map (fun a => (false, a)) := by
    simp [execAccesses, classAccesses, hclass, ownAccesses_eq_nil]
  rw [branchClass_eq] at h; cases h
  rw [hlist]
  exact (resolve_transacts i.operand s).congr (by split <;> rfl)

theorem jumpClass_transacts {f : Word → State → State} (hclass : i.operandClass = .jump)
    (h : jumpClass i f s = .next t) (hf : ∀ ea u, u.sp = s.sp → Transacts (ownAccesses i.mnemonic s.sp) u (f ea u)) :
    Transacts (execAccesses i s) s t := by
  have hlist : execAccesses i s =
      (pointerReads i.operand s).map (fun a => (false, a)) ++ ownAccesses i.mnemonic s.sp := by
    simp [execAccesses, classAccesses, hclass]
  rw [jumpClass_eq] at h; cases h
  rw [hlist]
  exact ((resolve_transacts i.operand s).trans (hf _ _ (resolve_sp i.operand s))).congr rfl

end

/-- R131: an instruction makes exactly its accesses, by the shape of its mnemonic. -/
theorem exec_transacts {i : Instr} {s t : State} (h : exec i s = .next t) : Transacts (execAccesses i s) s t := by
  have hclass : i.operandClass = i.mnemonic.operandClass i.mode := rfl
  rw [exec_eq_meaningOf] at h
  generalize hm : i.mnemonic = m at h hclass
  cases m <;> simp only [meaningOf, arithmetic_hardware] at h
  case lda | ldx | ldy | adc | sbc | and | ora | eor | cmp | cpx | cpy | bit =>
    exact readClass_transacts hclass h fun _ _ => rfl
  case sta | stx | sty => exact writeClass_transacts hclass h
  case asl | lsr | rol | ror => exact shiftClass_transacts hclass h
  case inc | dec => exact incDecClass_transacts hclass h
  case bcc | bcs | beq | bne | bmi | bpl | bvc | bvs => exact branchClass_transacts hclass h
  case jmp => exact jumpClass_transacts hclass h fun _ _ _ => by rw [hm]; exact .of_log_eq rfl
  case jsr =>
    refine jumpClass_transacts hclass h fun ea u hsp => ?_
    rw [hm, ← hsp]
    exact (push16_transacts (u.pc - 1) u).congr (setPC_log _ ea)
  case pha => exact impliedClass_transacts hclass h (by rw [hm]; exact push8_transacts _ s)
  case php => exact impliedClass_transacts hclass h (by rw [hm]; exact push8_transacts _ s)
  case pla => exact impliedClass_transacts hclass h (by rw [hm]; exact (pop8_transacts s).congr rfl)
  case plp => exact impliedClass_transacts hclass h (by rw [hm]; exact (pop8_transacts s).congr rfl)
  case rts => exact impliedClass_transacts hclass h (by rw [hm]; exact (pop16_transacts s).congr rfl)
  case brk => exact impliedClass_transacts hclass h (by rw [hm]; exact enterInterrupt_transacts _ _ irqVector s)
  case rti => exact impliedClass_transacts hclass h (by rw [hm]; exact returnFromInterrupt_transacts s)
  all_goals exact impliedClass_transacts hclass h (by rw [hm]; exact .of_log_eq rfl)

/-- R100, R131: a fetch reads at PC and the addresses after it. -/
theorem fetchBytes_transacts (n : Nat) (s : State) :
    Transacts ((List.range n).map fun k => (false, s.pc + BitVec.ofNat 16 k)) s (fetchBytes n s).2 := by
  rw [fetchBytes_eq]
  exact ⟨_, rfl, by simp [Function.comp_def, Access.shape]⟩

/-- R131: the pointer reads see X alone, which a fetch leaves. -/
theorem pointerReads_congr {s t : State} (h : t.x = s.x) (o : Operand) : pointerReads o t = pointerReads o s := by
  cases o <;> simp [pointerReads, h]

/-- Settles O9: the fetch, then the instruction's accesses. -/
theorem stepMakesExactlyTheListedAccesses : Obligations.StepMakesExactlyTheListedAccesses := by
  intro i s hs h
  obtain ⟨t, ht⟩ := exec_next i (fetchBytes i.length s).2
  have hx : (fetchBytes i.length s).2.x = s.x := by rw [fetchBytes_eq]
  have hsp : (fetchBytes i.length s).2.sp = s.sp := by rw [fetchBytes_eq]
  have hall := (fetchBytes_transacts i.length s).trans (exec_transacts ht)
  rw [execAccesses, pointerReads_congr hx, hsp, ← List.append_assoc, ← List.append_assoc] at hall
  exact ⟨t, (step_of_fetchBytes hs (eq_encode_of_decode h)).trans ht, hall.newAccesses_eq⟩

end Sys2Proof.Machine
end

section
/-! SUPPORT. The family of 41_load_store_transfer.md: loads, stores and register transfers, and the proofs of its
statements. -/

namespace Sys2Proof.Machine

/-! ## The frame of an instruction, and an instruction that sets Z and N -/

/-- R104: an instruction has the operand class of its mnemonic in its mode. -/
theorem operandClass_of_mnemonic {i : Instr} {m : Mnemonic} (hm : i.mnemonic = m) :
    i.operandClass = m.operandClass i.mode := by
  rw [Instr.operandClass, hm]

/-- R31, R140: with the bytes it may store, the frame of an instruction is that of its mnemonic. -/
theorem exec_changesOnly {i : Instr} {m : Mnemonic} {s t : State} {bytes : List Word} (hm : i.mnemonic = m)
    (h : exec i s = .next t) (hmem : SameMemExcept bytes s t) :
    ChangesOnly (writtenRegs m i.mode) (writtenFlags m) bytes s t := by
  subst hm
  exact ⟨exec_sameRegs h, exec_sameFlags h, hmem, exec_latch h⟩

/-- R117: Z and N are the value's after they are set from it. -/
theorem flagsZN_setZN (s : State) (v : Byte) : FlagsZN (s.setZN v) v :=
  ⟨setZN_flag s v .Z, setZN_flag s v .N⟩

/-- R117, R125: an instruction that stores no byte and ends by setting Z and N and counting its cycles. -/
theorem exec_setZN_completes {i : Instr} {m : Mnemonic} {s u : State} {v : Byte} {n : Nat} (hm : i.mnemonic = m)
    (h : exec i s = .next ((u.setZN v).addCycles n)) (hram : u.ram = s.ram) (hcycles : u.cycles = s.cycles) :
    FlagsZN ((u.setZN v).addCycles n) v ∧
    ChangesOnly (writtenRegs m i.mode) (writtenFlags m) [] s ((u.setZN v).addCycles n) ∧
    ((u.setZN v).addCycles n).cycles = s.cycles + n :=
  ⟨flagsZN_setZN u v, exec_changesOnly hm h (sameMem_of_ram hram []), congrArg (· + n) hcycles⟩

/-! ## Loads (R141 to R143) -/

/-- Settles O33: a load puts the operand into its register and sets Z and N from it. -/
theorem loadsCopyTheOperandAndSetZN : Obligations.LoadsCopyTheOperandAndSetZN := by
  refine ⟨by decide, fun i s => ?_⟩
  have hram := afterOperand_ram i s
  have hcycles := afterOperand_cycles i s
  refine ⟨fun hm => ?_, fun hm => ?_, fun hm => ?_⟩ <;> have h := exec_of_mnemonic hm s
  · exact ⟨_, h, rfl, exec_setZN_completes (u := (afterOperand i s).setA (operandOf i s)) hm h hram hcycles⟩
  · exact ⟨_, h, rfl, exec_setZN_completes (u := (afterOperand i s).setX (operandOf i s)) hm h hram hcycles⟩
  · exact ⟨_, h, rfl, exec_setZN_completes (u := (afterOperand i s).setY (operandOf i s)) hm h hram hcycles⟩

/-! ## Stores (R144 to R146) -/

/-- R126: a store never pays the page-cross penalty. -/
theorem costOf_of_write {i : Instr} (hclass : i.operandClass = .write) (s : State) : costOf i s = i.baseCycles := by
  simp [costOf, pageCrossPenalty, hclass]

/-- R123, R144: a store is one write at the effective address, after the resolver's reads, at the base cost. -/
theorem writeClass_eq_write8 {i : Instr} (hclass : i.operandClass = .write) (v : Byte) (s : State) :
    writeClass i v s = .next ((write8 (effAddr i s) v (resolve i.operand s).state).addCycles i.baseCycles) := by
  obtain ⟨hacc, himpl, -⟩ := operandClass_mode (.inr (.inl hclass))
  rw [writeClass_eq, storeOperand_mem hacc himpl, costOf_of_write hclass]

/-- R144: a store completes with the byte at the effective address, in one write, and changes nothing else. -/
theorem writeClass_completes {i : Instr} {v : Byte} {s : State} (hclass : i.operandClass = .write)
    (h : exec i s = writeClass i v s) :
    ∃ t, exec i s = .next t ∧ peek t (effAddr i s) = v ∧
      t.log = .write (effAddr i s) v :: (resolve i.operand s).state.log ∧
      ChangesOnly [] [] [effAddr i s] s t ∧ t.cycles = s.cycles + i.baseCycles := by
  rw [h, writeClass_eq_write8 hclass]
  refine ⟨_, rfl, ?byte, rfl, ⟨fun r _ => by simp, fun f _ => by simp, ?memory, ?latch⟩, by simp⟩
  case byte => rw [peek_addCycles, peek_write8, if_pos rfl]
  case memory =>
    intro a ha
    rw [peek_addCycles, peek_write8, if_neg (mt List.mem_singleton.2 ha), peek_resolve]
  case latch => exact ⟨resolve_created i.operand s, resolve_fault i.operand s⟩

/-- Settles O34: the three mnemonics are of the write class, each with its register's byte. -/
theorem storesWriteTheRegister : Obligations.StoresWriteTheRegister :=
  ⟨by decide, fun i s =>
    ⟨fun hm => writeClass_completes (operandClass_of_mnemonic hm) (exec_of_mnemonic hm s),
      fun hm => writeClass_completes (operandClass_of_mnemonic hm) (exec_of_mnemonic hm s),
      fun hm => writeClass_completes (operandClass_of_mnemonic hm) (exec_of_mnemonic hm s)⟩⟩

/-! ## Register transfers (R147 to R152) -/

/-- R147 to R151: a transfer that sets Z and N, whose only other update leaves RAM, the counter and the log. -/
theorem transfer_completes {i : Instr} {m : Mnemonic} {s u : State} {v : Byte} (hm : i.mnemonic = m)
    (h : exec i s = .next ((u.setZN v).addCycles 2)) (hram : u.ram = s.ram) (hcycles : u.cycles = s.cycles)
    (hlog : u.log = s.log) :
    FlagsZN ((u.setZN v).addCycles 2) v ∧
    ChangesOnly (writtenRegs m i.mode) (writtenFlags m) [] s ((u.setZN v).addCycles 2) ∧
    ((u.setZN v).addCycles 2).cycles = s.cycles + 2 ∧ ((u.setZN v).addCycles 2).log = s.log := by
  obtain ⟨hflags, hframe, hcost⟩ := exec_setZN_completes hm h hram hcycles
  exact ⟨hflags, hframe, hcost, hlog⟩

/-- Settles O35: five transfers set a register, Z and N; TXS sets SP alone. -/
theorem transfersCopyBetweenRegisters : Obligations.TransfersCopyBetweenRegisters := by
  refine ⟨by decide, fun s => ⟨?tax, ?tay, ?txa, ?tya, ?tsx, ?txs⟩⟩
  case tax => exact ⟨_, rfl, rfl, transfer_completes (i := .tax) (u := s.setX s.a) rfl rfl rfl rfl rfl⟩
  case tay => exact ⟨_, rfl, rfl, transfer_completes (i := .tay) (u := s.setY s.a) rfl rfl rfl rfl rfl⟩
  case txa => exact ⟨_, rfl, rfl, transfer_completes (i := .txa) (u := s.setA s.x) rfl rfl rfl rfl rfl⟩
  case tya => exact ⟨_, rfl, rfl, transfer_completes (i := .tya) (u := s.setA s.y) rfl rfl rfl rfl rfl⟩
  case tsx => exact ⟨_, rfl, rfl, transfer_completes (i := .tsx) (u := s.setX s.sp) rfl rfl rfl rfl rfl⟩
  case txs => exact ⟨_, rfl, rfl, exec_changesOnly (i := .txs) rfl rfl (sameMem_of_ram rfl []), rfl, rfl⟩

end Sys2Proof.Machine
end

section
/-! SUPPORT. The family of 42_arithmetic_logical.md: addition, subtraction and the bitwise functions on A, and the proofs
of its statements. -/

namespace Sys2Proof.Machine

/-! ## The decimal setting (R160) -/

/-- R160: arithmetic is refused in the decimal setting with D = 1. -/
theorem arithmetic_refused {cfg : Config} {s : State} (hcfg : cfg.decimalEnabled = true) (hD : s.flag .D = true)
    (i : Instr) (f : Byte → State → State) : arithmetic cfg i f s = .refused .decimalArithmetic := by
  simp [arithmetic, hcfg, hD]

/-- R160: without the decimal setting, or with D = 0, arithmetic is binary. -/
theorem arithmetic_binary {cfg : Config} {s : State} (h : cfg.decimalEnabled = false ∨ s.flag .D = false) (i : Instr)
    (f : Byte → State → State) : arithmetic cfg i f s = readClass i f s := by
  rcases h with h | h <;> simp [arithmetic, h]

/-- Settles O38: the two outcomes of `arithmetic`, and ADC and SBC are it at this hardware's setting. -/
theorem decimalArithmeticIsRefusedOnlyWhenEnabled : Obligations.DecimalArithmeticIsRefusedOnlyWhenEnabled :=
  ⟨Config.hardware_decimalEnabled,
    fun _ i f _ => ⟨fun hcfg hD => arithmetic_refused hcfg hD i f, fun h => arithmetic_binary h i f⟩,
    fun _ s => ⟨fun hm => exec_of_mnemonic hm s, fun hm => exec_of_mnemonic hm s⟩⟩

/-! ## Addition (R161) -/

/-- R161, R162: an instruction that adds a byte and the carry to A completes with the sum, its carry and its overflow. -/
theorem exec_addToA_completes {i : Instr} {mn : Mnemonic} {m : Byte} {s : State} (hm : i.mnemonic = mn)
    (h : exec i s = .next ((addToA m (afterOperand i s)).addCycles (costOf i s))) :
    ∃ t, exec i s = .next t ∧ t.a = (aluAdd s.a m (s.flag .C)).1 ∧
      (t.flag .C = true ↔ 0xFF < s.a.toNat + m.toNat + (s.flag .C).toNat) ∧
      (t.flag .V = true ↔ s.a.msb = m.msb ∧ t.a.msb ≠ s.a.msb) ∧ FlagsZN t t.a ∧
      ChangesOnly (writtenRegs mn i.mode) (writtenFlags mn) [] s t ∧ t.cycles = s.cycles + costOf i s := by
  rw [addToA_eq, afterOperand_a, afterOperand_flag] at h
  refine ⟨_, h, rfl, ?carry, ?overflow, exec_setZN_completes hm h (afterOperand_ram i s) (afterOperand_cycles i s)⟩
  case carry => simpa [setZN_flag, setFlag_flag] using aluAdd_carry s.a m (s.flag .C)
  case overflow => simpa [setZN_flag, setFlag_flag] using aluAdd_overflow s.a m (s.flag .C)

/-- Settles O36: ADC adds its operand, and `aluAdd` gives the sum modulo 256. -/
theorem adcAddsWithCarry : Obligations.AdcAddsWithCarry := by
  refine ⟨by decide, fun i s hm => ?_⟩
  have h : exec i s = .next ((addToA (operandOf i s) (afterOperand i s)).addCycles (costOf i s)) := by
    rw [exec_of_mnemonic hm, meaningOf, arithmetic_hardware, readClass_eq]
  exact exec_addToA_completes hm h

/-! ## Subtraction (R162) -/

/-- R162: the one's complement of a byte, as a number. -/
theorem complement_toNat (m : Byte) : (m ^^^ 0xFF).toNat = 255 - m.toNat := by
  rw [show (0xFF : Byte) = BitVec.allOnes 8 from rfl, BitVec.xor_allOnes, BitVec.toNat_not]

/-- R162: adding the one's complement and the carry subtracts the byte and the borrow. -/
theorem aluAdd_complement (a m : Byte) (cin : Bool) :
    (aluAdd a (m ^^^ 0xFF) cin).1 = a - m - BitVec.ofNat 8 (1 - cin.toNat) := by
  apply BitVec.eq_of_toNat_eq
  have hm : m.toNat < 256 := m.isLt
  rw [aluAdd_toNat, complement_toNat, BitVec.toNat_sub, BitVec.toNat_sub, BitVec.toNat_ofNat]
  cases cin <;> simp only [Bool.toNat_false, Bool.toNat_true] <;> omega

/-- R162: the carry out of that addition means that there is no borrow. -/
theorem carry_complement_iff (a m : Byte) (cin : Bool) :
    255 < a.toNat + (m ^^^ 0xFF).toNat + cin.toNat ↔ m.toNat + (1 - cin.toNat) ≤ a.toNat := by
  have hm : m.toNat < 256 := m.isLt
  have hcin : cin.toNat ≤ 1 := Bool.toNat_le cin
  rw [complement_toNat]
  omega

/-- Settles O37: SBC adds the one's complement of its operand, which is a subtraction with borrow. -/
theorem sbcSubtractsWithBorrow : Obligations.SbcSubtractsWithBorrow := by
  refine ⟨by decide, fun i s hm => ?_⟩
  have h : exec i s = .next ((addToA (operandOf i s ^^^ 0xFF) (afterOperand i s)).addCycles (costOf i s)) := by
    rw [exec_of_mnemonic hm, meaningOf, arithmetic_hardware, readClass_eq, subFromA]
  obtain ⟨t, ht, ha, hcarry, hrest⟩ := exec_addToA_completes hm h
  exact ⟨t, ht, ha.trans (aluAdd_complement s.a _ _), hcarry.trans (carry_complement_iff s.a _ _), hrest⟩

/-! ## A flag that the arithmetic does not see (R31, R160) -/

/-- R23: writes of two different flags may be made in either order. -/
theorem setFlag_comm {f g : Flag} (h : f ≠ g) (s : State) (b c : Bool) :
    (s.setFlag f b).setFlag g c = (s.setFlag g c).setFlag f b := by
  have hstatus : ((s.setFlag f b).setFlag g c).status = ((s.setFlag g c).setFlag f b).status := by
    refine status_ext fun k => ?_
    by_cases hU : k = .U
    · rw [hU, flag_U, flag_U]
    · obtain rfl | hf := eq_or_ne k f
      · simp [setFlag_flag, hU, h]
      · simp [setFlag_flag, hU, hf]
  have hp : ((s.setFlag f b).setFlag g c).p = ((s.setFlag g c).setFlag f b).p := by
    simpa [State.status] using hstatus
  exact congrArg (fun p => { s with p := p }) hp

/-- R117: Z and N may be set before or after another flag. -/
theorem setZN_setFlag {f : Flag} (hZ : f ≠ .Z) (hN : f ≠ .N) (s : State) (b : Bool) (v : Byte) :
    (s.setFlag f b).setZN v = (s.setZN v).setFlag f b := by
  rw [State.setZN, setFlag_comm hZ, setFlag_comm hN, ← State.setZN]

/-- R105: the resolver sees no flag. -/
theorem resolve_setFlag (o : Operand) (s : State) (f : Flag) (b : Bool) :
    resolve o (s.setFlag f b) = { resolve o s with state := (resolve o s).state.setFlag f b } := by
  cases o <;> rfl

/-- R123: the operand's read sees no flag. -/
theorem loadOperand_setFlag (o : Operand) (s : State) (f : Flag) (b : Bool) :
    loadOperand o (resolve o (s.setFlag f b)) =
      ((loadOperand o (resolve o s)).1, (loadOperand o (resolve o s)).2.setFlag f b) := by
  cases o <;> rfl

theorem operandOf_setFlag (i : Instr) (s : State) (f : Flag) (b : Bool) :
    operandOf i (s.setFlag f b) = operandOf i s := by
  rw [operandOf, loadOperand_setFlag, ← operandOf]

theorem afterOperand_setFlag (i : Instr) (s : State) (f : Flag) (b : Bool) :
    afterOperand i (s.setFlag f b) = (afterOperand i s).setFlag f b := by
  rw [afterOperand, loadOperand_setFlag, ← afterOperand]

theorem costOf_setFlag (i : Instr) (s : State) (f : Flag) (b : Bool) : costOf i (s.setFlag f b) = costOf i s := by
  rw [costOf, resolve_setFlag, ← costOf]

/-- R104: an instruction of the read class does not see a flag that its function does not see. -/
theorem readClass_setFlag {i : Instr} {f : Byte → State → State} {g : Flag} {b : Bool} {s : State}
    (hf : ∀ m u, f m (u.setFlag g b) = (f m u).setFlag g b) :
    ∃ t, readClass i f s = .next t ∧ readClass i f (s.setFlag g b) = .next (t.setFlag g b) := by
  refine ⟨_, readClass_eq i f s, ?_⟩
  rw [readClass_eq, operandOf_setFlag, afterOperand_setFlag, costOf_setFlag, hf]
  rfl

/-- R161: an addition sees the carry alone, and writes C, V, Z and N. -/
theorem addToA_setFlag {g : Flag} (hg : g ∉ [Flag.C, .Z, .V, .N]) (b : Bool) (m : Byte) (s : State) :
    addToA m (s.setFlag g b) = (addToA m s).setFlag g b := by
  simp only [List.mem_cons, List.not_mem_nil, or_false, not_or] at hg
  obtain ⟨hC, hZ, hV, hN⟩ := hg
  have hA : ∀ v, (s.setFlag g b).setA v = (s.setA v).setFlag g b := fun _ => rfl
  rw [addToA_eq, setFlag_a, setFlag_flag_of_ne (Ne.symm hC), hA, setFlag_comm hC, setFlag_comm hV, setZN_setFlag hZ hN,
    ← addToA_eq]

/-- Settles O39: D is none of the flags that an addition sees or writes. -/
theorem decimalFlagDoesNotInterfere : Obligations.DecimalFlagDoesNotInterfere := by
  intro i s b hm
  have hadd := addToA_setFlag (g := .D) (by decide) b
  rcases hm with hm | hm <;>
    rw [exec_of_mnemonic hm, exec_of_mnemonic hm, meaningOf, meaningOf, arithmetic_hardware, arithmetic_hardware]
  · exact readClass_setFlag hadd
  · exact readClass_setFlag fun m => hadd (m ^^^ 0xFF)

/-! ## The bitwise functions (R163 to R165) -/

/-- R163 to R165: an instruction that combines A and its operand by a bitwise function completes with it in A. -/
theorem exec_logicA_completes {i : Instr} {mn : Mnemonic} {op : Byte → Byte → Byte} {s : State} (hm : i.mnemonic = mn)
    (h : exec i s = readClass i (logicA op) s) :
    ∃ t, exec i s = .next t ∧ t.a = op s.a (operandOf i s) ∧ FlagsZN t t.a ∧
      ChangesOnly (writtenRegs mn i.mode) (writtenFlags mn) [] s t ∧ t.cycles = s.cycles + costOf i s := by
  rw [readClass_eq, logicA, afterOperand_a] at h
  exact ⟨_, h, rfl, exec_setZN_completes hm h (afterOperand_ram i s) (afterOperand_cycles i s)⟩

/-- Settles O40: each of the three mnemonics has its bitwise function. -/
theorem logicalInstructionsCombineIntoA : Obligations.LogicalInstructionsCombineIntoA :=
  ⟨by decide, fun _ s =>
    ⟨fun hm => exec_logicA_completes (op := aluAnd) hm (exec_of_mnemonic hm s),
      fun hm => exec_logicA_completes (op := aluOr) hm (exec_of_mnemonic hm s),
      fun hm => exec_logicA_completes (op := aluXor) hm (exec_of_mnemonic hm s)⟩⟩

end Sys2Proof.Machine
end

section
/-! SUPPORT. The family of 43_shift_rotate.md: the shifts and rotates of A and of a byte in memory, and the proof of its
statement. -/

namespace Sys2Proof.Machine

/-! ## The operand classes without a penalty, and a byte read and written back (R123, R126) -/

/-- R126: only an instruction of the read class pays the page-cross penalty. -/
theorem costOf_of_ne_read {i : Instr} (hclass : i.operandClass ≠ .read) (s : State) : costOf i s = i.baseCycles := by
  simp [costOf, pageCrossPenalty, hclass]

/-- R104: a read-modify-write has an effective address, and its operand is not Immediate. -/
theorem mode_of_operandClass_rmw {i : Instr} (hclass : i.operandClass = .rmw) :
    i.mode ≠ .imm ∧ i.mode ≠ .acc ∧ i.mode ≠ .impl := by
  obtain ⟨hacc, himpl, himm⟩ := operandClass_mode (.inr (.inr hclass))
  exact ⟨himm.resolve_left (by simp [hclass]), hacc, himpl⟩

/-- R123: a read-modify-write reads at the effective address and then writes there. -/
theorem storeOperand_afterOperand_rmw {i : Instr} (hclass : i.operandClass = .rmw) (v : Byte) (s : State) :
    storeOperand (resolve i.operand s).ea v (afterOperand i s) =
      write8 (effAddr i s) v (read8 (effAddr i s) (resolve i.operand s).state).2 := by
  obtain ⟨himm, hacc, himpl⟩ := mode_of_operandClass_rmw hclass
  rw [storeOperand_mem hacc himpl, afterOperand_mem himm hacc himpl]

/-- R123: the byte that a read-modify-write reads is the operand value. -/
theorem operandOf_rmw {i : Instr} (hclass : i.operandClass = .rmw) (s : State) :
    operandOf i s = (resolve i.operand s).state.busAnswer (effAddr i s) := by
  obtain ⟨himm, hacc, himpl⟩ := mode_of_operandClass_rmw hclass
  exact operandOf_mem himm hacc himpl s

/-- R123: the two accesses of a read-modify-write, after the resolver's. -/
theorem storeOperand_rmw_log {i : Instr} (hclass : i.operandClass = .rmw) (v : Byte) (s : State) :
    (storeOperand (resolve i.operand s).ea v (afterOperand i s)).log =
      .write (effAddr i s) v :: .read (effAddr i s) (operandOf i s) :: (resolve i.operand s).state.log := by
  rw [storeOperand_afterOperand_rmw hclass, write8_log, read8_log, operandOf_rmw hclass]

/-- R123: memory after a read-modify-write. -/
theorem peek_storeOperand_rmw {i : Instr} (hclass : i.operandClass = .rmw) (v : Byte) (s : State) (a : Word) :
    peek (storeOperand (resolve i.operand s).ea v (afterOperand i s)) a = if a = effAddr i s then v else peek s a := by
  rw [storeOperand_afterOperand_rmw hclass, peek_write8, peek_read8, peek_resolve]

/-- R180: in Accumulator mode the operand is A, with no access. -/
theorem operandOf_acc {i : Instr} (hacc : i.mode = .acc) (s : State) : operandOf i s = s.a := by
  rw [operandOf, operand_of_mode_acc hacc]; rfl

theorem afterOperand_acc {i : Instr} (hacc : i.mode = .acc) (s : State) : afterOperand i s = s := by
  rw [afterOperand, operand_of_mode_acc hacc]; rfl

/-! ## What the four mnemonics share (R180) -/

section
variable {i : Instr} (hm : i.mnemonic ∈ [Mnemonic.asl, .lsr, .rol, .ror])
include hm

/-- R104, R180: a shift is a read-modify-write but in Accumulator mode. -/
theorem operandClass_of_shift : i.operandClass = if i.mode = .acc then .accumulator else .rmw := by
  simp only [List.mem_cons, List.not_mem_nil, or_false] at hm
  rcases hm with hm | hm | hm | hm <;> exact operandClass_of_mnemonic hm

/-- R180: a shift never pays the page-cross penalty. -/
theorem costOf_of_shift (s : State) : costOf i s = i.baseCycles :=
  costOf_of_ne_read (by rw [operandClass_of_shift hm]; split <;> decide) s

/-- R31, R180: with the bytes it may store, the frame of a shift. -/
theorem shift_changesOnly {s t : State} {bytes : List Word} (h : exec i s = .next t) (hmem : SameMemExcept bytes s t) :
    ChangesOnly (if i.mode = .acc then [.A] else []) [.C, .Z, .N] bytes s t := by
  simp only [List.mem_cons, List.not_mem_nil, or_false] at hm
  rcases hm with hm | hm | hm | hm <;> exact exec_changesOnly hm h hmem

end

/-- R180: the flags after a shift, wherever its result goes. -/
theorem shift_flags (u : State) (r : Byte) (c : Bool) (n : Nat) :
    (((u.setFlag .C c).setZN r).addCycles n).flag .C = c ∧ FlagsZN (((u.setFlag .C c).setZN r).addCycles n) r :=
  ⟨by simp [setZN_flag, setFlag_flag], flagsZN_setZN (u.setFlag .C c) r⟩

/-- R180 to R184: an instruction of the shift shape completes with its ALU function's result in A or in memory. -/
theorem shiftClass_completes {i : Instr} {alu : Byte → Bool → Byte × Bool} {s : State} {r : Byte} {c : Bool}
    (hm : i.mnemonic ∈ [Mnemonic.asl, .lsr, .rol, .ror]) (h : exec i s = shiftClass i alu s)
    (halu : alu (operandOf i s) (s.flag .C) = (r, c)) :
    ∃ t, exec i s = .next t ∧ t.flag .C = c ∧ FlagsZN t r ∧ t.cycles = s.cycles + i.baseCycles ∧
      (i.mode = .acc → t.a = r ∧ operandOf i s = s.a ∧ ChangesOnly [.A] [.C, .Z, .N] [] s t ∧ t.log = s.log) ∧
      (i.mode ≠ .acc → peek t (effAddr i s) = r ∧ ChangesOnly [] [.C, .Z, .N] [effAddr i s] s t ∧
        t.log = .write (effAddr i s) r :: .read (effAddr i s) (operandOf i s) :: (resolve i.operand s).state.log) := by
  rw [shiftClass_eq, halu, costOf_of_shift hm] at h
  obtain ⟨hcarry, hzn⟩ := shift_flags (storeOperand (resolve i.operand s).ea r (afterOperand i s)) r c i.baseCycles
  refine ⟨_, h, hcarry, hzn, by simp, fun hacc => ?onA, fun hacc => ?inMemory⟩
  case onA =>
    rw [storeOperand_acc hacc, afterOperand_acc hacc] at h ⊢
    have hframe := shift_changesOnly (bytes := []) hm h fun _ _ => by simp
    rw [if_pos hacc] at hframe
    exact ⟨by simp, operandOf_acc hacc s, hframe, by simp⟩
  case inMemory =>
    have hclass : i.operandClass = .rmw := by rw [operandClass_of_shift hm, if_neg hacc]
    have hframe := shift_changesOnly (bytes := [effAddr i s]) hm h fun a ha => by
      simp [peek_storeOperand_rmw hclass, mt List.mem_singleton.2 ha]
    rw [if_neg hacc] at hframe
    exact ⟨by simp [peek_storeOperand_rmw hclass], hframe, by simp [storeOperand_rmw_log hclass]⟩

/-! ## The four functions (R181 to R184) -/

/-- R183: the carry goes in at bit 0. -/
theorem aluRol_eq (v : Byte) (cin : Bool) :
    aluRol v cin = ((v <<< 1) ||| BitVec.ofNat 8 cin.toNat, v.getLsbD 7) := by
  cases cin <;> rfl

/-- R184: the carry goes in at bit 7. -/
theorem aluRor_eq (v : Byte) (cin : Bool) :
    aluRor v cin = ((v >>> 1) ||| (BitVec.ofNat 8 cin.toNat <<< 7), v.getLsbD 0) := by
  cases cin <;> rfl

/-- Settles O41: each mnemonic is the shift shape with its own ALU function. -/
theorem shiftsActOnAOrMemory : Obligations.ShiftsActOnAOrMemory := by
  refine ⟨by decide, fun i s r c hshift => ?_⟩
  rcases hshift with ⟨hm, rfl, rfl⟩ | ⟨hm, rfl, rfl⟩ | ⟨hm, rfl, rfl⟩ | ⟨hm, rfl, rfl⟩ <;>
    have h := exec_of_mnemonic hm s <;> have hmem : i.mnemonic ∈ [Mnemonic.asl, .lsr, .rol, .ror] := by simp [hm]
  · exact shiftClass_completes (alu := aluAsl) hmem h rfl
  · exact shiftClass_completes (alu := aluLsr) hmem h rfl
  · exact shiftClass_completes (alu := aluRol) hmem h (aluRol_eq _ _)
  · exact shiftClass_completes (alu := aluRor) hmem h (aluRor_eq _ _)

end Sys2Proof.Machine
end

section
/-! SUPPORT. The family of 44_increment_decrement.md: INC and DEC of a byte in memory, INX, INY, DEX and DEY, and the
proofs of their statements. -/

namespace Sys2Proof.Machine

/-! ## Memory (R191, R192) -/

/-- R191, R192: an instruction of the increment shape completes with its ALU function's result at the effective address,
at the base cost. -/
theorem incDecClass_completes {i : Instr} {m : Mnemonic} {alu : Byte → Byte} {s : State} (hm : i.mnemonic = m)
    (hclass : i.operandClass = .rmw) (h : exec i s = incDecClass i alu s) :
    ∃ t, exec i s = .next t ∧ peek t (effAddr i s) = alu (operandOf i s) ∧ FlagsZN t (alu (operandOf i s)) ∧
      ChangesOnly (writtenRegs m i.mode) (writtenFlags m) [effAddr i s] s t ∧ t.cycles = s.cycles + i.baseCycles := by
  rw [incDecClass_eq, costOf_of_ne_read (by simp [hclass])] at h
  refine ⟨_, h, ?byte, flagsZN_setZN _ _, exec_changesOnly hm h fun a ha => ?memory, by simp⟩
  case byte => simp [peek_storeOperand_rmw hclass]
  case memory => simp [peek_storeOperand_rmw hclass, mt List.mem_singleton.2 ha]

/-- Settles O42: INC and DEC are the increment shape with `aluInc` and `aluDec`. -/
theorem incAndDecChangeMemory : Obligations.IncAndDecChangeMemory :=
  ⟨by decide, fun _ s =>
    ⟨fun hm => incDecClass_completes (alu := aluInc) hm (operandClass_of_mnemonic hm) (exec_of_mnemonic hm s),
      fun hm => incDecClass_completes (alu := aluDec) hm (operandClass_of_mnemonic hm) (exec_of_mnemonic hm s)⟩⟩

/-! ## The index registers (R193 to R196) -/

/-- Settles O43: each sets its register to `aluInc` or `aluDec` of it, then Z and N. -/
theorem indexRegistersStepByOne : Obligations.IndexRegistersStepByOne := by
  refine ⟨by decide, fun s => ⟨?inx, ?iny, ?dex, ?dey⟩⟩
  case inx => exact ⟨_, rfl, rfl, exec_setZN_completes (i := .inx) (u := s.setX (aluInc s.x)) rfl rfl rfl rfl⟩
  case iny => exact ⟨_, rfl, rfl, exec_setZN_completes (i := .iny) (u := s.setY (aluInc s.y)) rfl rfl rfl rfl⟩
  case dex => exact ⟨_, rfl, rfl, exec_setZN_completes (i := .dex) (u := s.setX (aluDec s.x)) rfl rfl rfl rfl⟩
  case dey => exact ⟨_, rfl, rfl, exec_setZN_completes (i := .dey) (u := s.setY (aluDec s.y)) rfl rfl rfl rfl⟩

end Sys2Proof.Machine
end

section
/-! SUPPORT. The family of 45_compare_bit.md: the compares and the bit test, and the proofs of their statements. -/

namespace Sys2Proof.Machine

/-! ## Compares (R201 to R203) -/

/-- R201: the carry of a comparison, as an unsigned order. -/
theorem aluCmp_carry (reg m : Byte) : (aluCmp reg m).2 = true ↔ m ≤ reg := by
  rw [aluCmp, decide_eq_true_iff, BitVec.le_def]

/-- R201: the difference is 0 exactly when the two bytes are equal. -/
theorem aluCmp_eq_zero (reg m : Byte) : (aluCmp reg m).1 = 0 ↔ reg = m := sub_eq_zero

/-- R201 to R203: an instruction that compares a byte with its operand completes with the comparison's flags. -/
theorem exec_compareWith_completes {i : Instr} {mn : Mnemonic} {reg : Byte} {s : State} (hm : i.mnemonic = mn)
    (h : exec i s = readClass i (compareWith reg) s) :
    ∃ t, exec i s = .next t ∧ (t.flag .C = true ↔ operandOf i s ≤ reg) ∧ (t.flag .Z = true ↔ reg = operandOf i s) ∧
      t.flag .N = (reg - operandOf i s).getLsbD 7 ∧ ChangesOnly (writtenRegs mn i.mode) (writtenFlags mn) [] s t ∧
      t.cycles = s.cycles + costOf i s := by
  rw [readClass_eq, compareWith_eq] at h
  obtain ⟨⟨hzero, hnegative⟩, hrest⟩ := exec_setZN_completes hm h (afterOperand_ram i s) (afterOperand_cycles i s)
  refine ⟨_, h, ?carry, ?zero, hnegative, hrest⟩
  case carry => simpa [setZN_flag, setFlag_flag] using aluCmp_carry reg (operandOf i s)
  case zero => rw [hzero, beq_iff_eq, aluCmp_eq_zero]

/-- Settles O44: each of the three mnemonics compares its register. -/
theorem comparesSetCarryZeroNegative : Obligations.ComparesSetCarryZeroNegative := by
  refine ⟨by decide, fun i s reg hreg => ?_⟩
  rcases hreg with ⟨hm, rfl⟩ | ⟨hm, rfl⟩ | ⟨hm, rfl⟩ <;>
    exact exec_compareWith_completes hm (exec_of_mnemonic hm s)

/-! ## The bit test (R204) -/

/-- R204: the flags after a bit test. -/
theorem bitTest_flag (m : Byte) (s : State) (g : Flag) : (bitTest m s).flag g =
    if g = .Z then s.a &&& m == 0 else if g = .N then m.getLsbD 7 else if g = .V then m.getLsbD 6 else s.flag g := by
  rw [bitTest, setFlag_flag, setFlag_flag, setFlag_flag]
  cases g <;> simp

/-- R126: an instruction whose mode is not indexed does not pay the page-cross penalty. -/
theorem costOf_of_mode_notMem {i : Instr} (hmode : i.mode ∉ [Mode.absX, .absY, .indY]) (s : State) :
    costOf i s = i.baseCycles := by
  rw [costOf, pageCrossPenalty, if_neg fun ⟨_, hindexed, _⟩ => hmode hindexed, Nat.add_zero]

/-- R74, R204: the modes of BIT are not indexed. -/
theorem costOf_of_bit {i : Instr} (hm : i.mnemonic = .bit) (s : State) : costOf i s = i.baseCycles := by
  have hlegal := mode_legal i
  rw [hm] at hlegal
  exact costOf_of_mode_notMem ((by decide : ∀ k ∈ legalModes .bit, k ∉ [Mode.absX, .absY, .indY]) _ hlegal) s

/-- Settles O45: BIT is the read class with `bitTest`, which writes Z, N and V alone. -/
theorem bitTestsTheOperand : Obligations.BitTestsTheOperand := by
  refine ⟨by decide, fun i s hm => ?_⟩
  have h := exec_of_mnemonic hm s
  rw [meaningOf, readClass_eq, costOf_of_bit hm] at h
  have hram : (bitTest (operandOf i s) (afterOperand i s)).ram = s.ram := afterOperand_ram i s
  have hcycles : (bitTest (operandOf i s) (afterOperand i s)).cycles = s.cycles := afterOperand_cycles i s
  refine ⟨_, h, ?zero, ?negative, ?overflow, exec_changesOnly hm h (sameMem_of_ram hram []),
    congrArg (· + i.baseCycles) hcycles⟩
  case zero => simp [bitTest_flag]
  case negative => simp [bitTest_flag]
  case overflow => simp [bitTest_flag]

end Sys2Proof.Machine
end

section
/-! SUPPORT. The family of 46_branch.md: the eight branches, and the proof of their statement. -/

namespace Sys2Proof.Machine

/-- R127: a branch taken to its own page costs 1 extra cycle, to another 2. -/
theorem branchExtra_eq (taken : Bool) (pcNext target : Word) :
    branchExtra taken pcNext target = if taken then (if target.hi = pcNext.hi then 1 else 2) else 0 := by
  simp only [branchExtra, pageCrossed_iff, ne_eq, ite_not]

/-- R115, R127: the target of a branch needs no read, and its base count is 2. -/
theorem branchClass_rel {i : Instr} {b : Byte} (hop : i.operand = .rel b) (hclass : i.operandClass = .branch)
    (taken : Bool) (s : State) : branchClass i taken s =
      .next ((if taken then s.setPC (s.pc + sext16 b) else s).addCycles
        (2 + branchExtra taken s.pc (s.pc + sext16 b))) := by
  obtain ⟨-, -, hbase, -⟩ := baseCycles_bounds i
  rw [branchClass_eq, effAddr, hop, hbase hclass]
  rfl

/-- R210: an instruction of the branch shape goes to PC plus its displacement when its condition holds, and changes
only what its mnemonic writes. -/
theorem branchClass_completes {i : Instr} {m : Mnemonic} {b : Byte} {taken : Bool} {s : State} (hm : i.mnemonic = m)
    (hop : i.operand = .rel b) (hclass : i.operandClass = .branch) (h : exec i s = branchClass i taken s) :
    ∃ t, exec i s = .next t ∧ t.pc = (if taken then s.pc + sext16 b else s.pc) ∧ t.log = s.log ∧
      t.cycles = s.cycles + 2 + (if taken then (if (s.pc + sext16 b).hi = s.pc.hi then 1 else 2) else 0) ∧
      ChangesOnly (writtenRegs m i.mode) (writtenFlags m) [] s t := by
  rw [branchClass_rel hop hclass] at h
  refine ⟨_, h, ?pc, ?log, ?cycles, exec_changesOnly hm h (sameMem_of_ram ?ram [])⟩
  case cycles => rw [← branchExtra_eq, Nat.add_assoc]; cases taken <;> rfl
  all_goals cases taken <;> rfl

/-- Settles O46: each mnemonic is the branch shape with the condition its flag names. -/
theorem branchesFollowTheirFlag : Obligations.BranchesFollowTheirFlag := by
  refine ⟨by decide, fun i b s taken hi => ?_⟩
  rcases hi with ⟨rfl, rfl⟩ | ⟨rfl, rfl⟩ | ⟨rfl, rfl⟩ | ⟨rfl, rfl⟩ | ⟨rfl, rfl⟩ | ⟨rfl, rfl⟩ | ⟨rfl, rfl⟩ | ⟨rfl, rfl⟩ <;>
    exact branchClass_completes rfl rfl rfl (exec_of_mnemonic rfl s)

end Sys2Proof.Machine
end

section
/-! SUPPORT. The family of 47_flag.md: the seven flag instructions, and the proof of their statement. -/

namespace Sys2Proof.Machine

/-- R231 to R237: an instruction that writes one flag completes with the flag at its value, no access, and no change but
what its mnemonic writes, at the base cost. Unused cannot be the flag, since it always reads 1 (R24). -/
theorem setFlag_completes {i : Instr} {m : Mnemonic} {f : Flag} {v : Bool} {s : State} (hm : i.mnemonic = m)
    (hU : f ≠ .U) (h : exec i s = impliedClass i (fun u => u.setFlag f v) s) :
    ∃ t, exec i s = .next t ∧ t.flag f = v ∧ ChangesOnly (writtenRegs m i.mode) (writtenFlags m) [] s t ∧
      t.log = s.log ∧ t.cycles = s.cycles + i.baseCycles := by
  rw [impliedClass_eq] at h
  refine ⟨_, h, ?flag, exec_changesOnly hm h (sameMem_of_ram rfl []), rfl, rfl⟩
  case flag => rw [addCycles_flag, setFlag_flag, if_neg hU, if_pos rfl]

/-- Settles O47: each of the seven instructions writes its flag, the one flag that `writtenFlags` lists for it. -/
theorem flagInstructionsWriteOneFlag : Obligations.FlagInstructionsWriteOneFlag := by
  refine ⟨by decide, fun i f v s hrow => ?_⟩
  simp only [List.mem_cons, Prod.mk.injEq, List.not_mem_nil, or_false] at hrow
  rcases hrow with ⟨rfl, rfl, rfl⟩ | ⟨rfl, rfl, rfl⟩ | ⟨rfl, rfl, rfl⟩ | ⟨rfl, rfl, rfl⟩ | ⟨rfl, rfl, rfl⟩ |
      ⟨rfl, rfl, rfl⟩ | ⟨rfl, rfl, rfl⟩ <;>
    exact setFlag_completes rfl (by decide) (exec_of_mnemonic rfl s)

end Sys2Proof.Machine
end

section
/-! SUPPORT. The family of 48_stack.md: pushes and pulls of A and P, and the proofs of its statements. -/

namespace Sys2Proof.Machine

/-! ## Pushes (R241, R243) -/

/-- The frame of memory reads RAM alone. -/
theorem SameMemExcept.congr {l : List Word} {s t u : State} (h : SameMemExcept l s t) (hram : u.ram = t.ram) :
    SameMemExcept l s u :=
  fun a ha => (peek_congr hram a).trans (h a ha)

/-- R60: a push leaves every byte but the stack byte SP designates. -/
theorem push8_sameMem (v : Byte) (s : State) : SameMemExcept [word16 1 s.sp] s (push8 v s) := by
  intro a ha
  rw [peek_push8, if_neg (mt List.mem_singleton.2 ha)]

/-- R241, R243: an instruction that pushes one byte completes with it at the stack byte. -/
theorem push8_completes {i : Instr} {m : Mnemonic} {v : Byte} {n : Nat} {s : State} (hm : i.mnemonic = m)
    (h : exec i s = .next ((push8 v s).addCycles n)) :
    ∃ t, exec i s = .next t ∧ peek t (word16 1 s.sp) = v ∧ t.sp = s.sp - 1 ∧
      ChangesOnly (writtenRegs m i.mode) (writtenFlags m) [word16 1 s.sp] s t ∧ t.cycles = s.cycles + n := by
  refine ⟨_, h, ?byte, rfl, exec_changesOnly hm h ((push8_sameMem v s).congr rfl), rfl⟩
  case byte => rw [peek_addCycles, peek_push8, if_pos rfl]

/-- Settles O48: PHA pushes A, PHP pushes P with Break and Unused set. -/
theorem pushInstructionsStoreOnTheStack : Obligations.PushInstructionsStoreOnTheStack :=
  ⟨by decide, by decide, fun _ => ⟨push8_completes (i := .pha) rfl rfl, push8_completes (i := .php) rfl rfl⟩⟩

/-! ## Pulls (R242, R244) -/

/-- R24: `P <- v` sets Unused itself. -/
theorem setP_withUnused (s : State) (v : Byte) : s.setP (withUnused v) = s.setP v := by
  simp [State.setP]

/-- R244: Break forced to 0 and Unused to 1 is a write of Break, as `P <- v` stores it. -/
theorem pullP_eq_setP (s : State) : pullP s = (pop8 s).2.setP (putFlag .B false (pop8 s).1) := by
  rw [pullP_eq]
  exact setP_withUnused (pop8 s).2 (putFlag .B false (pop8 s).1)

/-- R244: the flags after a pull of P. -/
theorem pullP_flag (s : State) (f : Flag) : (pullP s).flag f =
    if f = .U then true else if f = .B then false else (s.nthAnswer 0 (word16 1 (s.sp + 1))).getLsbD f.bit := by
  rw [pullP_eq_setP, setP_flag, putFlag_bit, pop8_answer]

/-- R244: the status byte after a pull of P. -/
theorem pullP_status (s : State) :
    (pullP s).status = (s.nthAnswer 0 (word16 1 (s.sp + 1)) &&& ~~~0x10#8) ||| 0x20 := by
  rw [pullP_eq_setP, setP_status, pop8_answer]; rfl

/-- Settles O49: PLA is a pop into A with Z and N; PLP is a pop into P. -/
theorem pullInstructionsLoadFromTheStack : Obligations.PullInstructionsLoadFromTheStack := by
  refine ⟨by decide, by decide, fun s => ⟨?pla, ?plp⟩⟩
  case pla =>
    obtain ⟨hflags, hframe, hcycles⟩ :=
      exec_setZN_completes (i := .pla) (s := s) (u := (pop8 s).2.setA (pop8 s).1) rfl rfl rfl rfl
    exact ⟨_, rfl, pop8_answer s, pop8_answer s ▸ hflags, rfl, hframe, hcycles⟩
  case plp =>
    refine ⟨_, rfl, pullP_status s, pullP_flag s .B, pullP_flag s .U, fun f hB hU => ?_, rfl,
      exec_changesOnly (i := .plp) rfl rfl (sameMem_of_ram rfl []), rfl⟩
    exact (pullP_flag s f).trans (by rw [if_neg hU, if_neg hB])

end Sys2Proof.Machine
end

section
/-! SUPPORT. The family of 49_control_transfer.md: jumps, subroutines, BRK and RTI, and the proofs of its statements. -/

namespace Sys2Proof.Machine

/-! ## Jumps and no-op (R251, R256) -/

/-- Settles O50: a jump sets PC to its effective address, for the Indirect row the pointer's target. -/
theorem jumpsSetPC : Obligations.JumpsSetPC := by
  refine ⟨by decide, fun w s => ⟨?abs, ?ind⟩⟩
  case abs => exact ⟨_, rfl, rfl, rfl, exec_changesOnly (i := .jmpAbs w) rfl rfl (sameMem_of_ram rfl []), rfl⟩
  case ind =>
    exact ⟨_, rfl, resolve_ind_target w s, exec_changesOnly (i := .jmpInd w) rfl rfl (sameMem_of_ram rfl []), rfl⟩

/-- Settles O54: an Implied instruction that does nothing is left with its two cycles. -/
theorem nopOnlyCostsCycles : Obligations.NopOnlyCostsCycles :=
  ⟨by decide, fun s => impliedClass_eq .nop id s⟩

/-! ## Subroutines (R252, R253) -/

/-- R62: the two stack bytes of a pushed word. -/
theorem peek_push16_bytes (w : Word) (s : State) :
    peek (push16 w s) (word16 1 s.sp) = w.hi ∧ peek (push16 w s) (word16 1 (s.sp - 1)) = w.lo := by
  constructor
  · rw [peek_push16, if_neg (stackByte_ne_next s.sp), if_pos rfl]
  · rw [peek_push16, if_pos rfl]

/-- R62: a pushed word leaves every byte but its two stack bytes. -/
theorem push16_sameMem (w : Word) (s : State) : SameMemExcept [word16 1 s.sp, word16 1 (s.sp - 1)] s (push16 w s) := by
  intro a ha
  simp only [List.mem_cons, List.not_mem_nil, or_false, not_or] at ha
  obtain ⟨hhi, hlo⟩ := ha
  rw [peek_push16, if_neg hlo, if_neg hhi]

/-- R63: the word popped, in the addresses of the statements. -/
theorem pop16_answer_two (s : State) :
    (pop16 s).1 = word16 (s.nthAnswer 1 (word16 1 (s.sp + 2))) (s.nthAnswer 0 (word16 1 (s.sp + 1))) := by
  rw [pop16_answer, add_one_add_one]

/-- R252: JSR pushes the address of its last byte and goes to its operand. -/
theorem exec_jsr (w : Word) (s : State) :
    exec (.jsr w) s = .next (((push16 (s.pc - 1) s).setPC w).addCycles 6) := rfl

/-- R253: RTS pops a word and goes past it. -/
theorem exec_rts (s : State) : exec .rts s = .next (((pop16 s).2.setPC ((pop16 s).1 + 1)).addCycles 6) := rfl

/-- Settles O51: the call is a push of a word, the return a pop of one. -/
theorem subroutineCallAndReturn : Obligations.SubroutineCallAndReturn := by
  refine ⟨by decide, by decide, fun w s => ⟨?jsr, ?rts⟩⟩
  case jsr =>
    obtain ⟨hhi, hlo⟩ := peek_push16_bytes (s.pc - 1) s
    refine ⟨_, exec_jsr w s, rfl, ?sp, ?hi, ?lo,
      exec_changesOnly (i := .jsr w) rfl (exec_jsr w s) ((push16_sameMem (s.pc - 1) s).congr ?ram), ?cycles⟩
    case ram => rw [addCycles_ram, setPC_ram]
    case cycles => rw [addCycles_cycles, setPC_cycles, push16_cycles]
    case sp => rw [addCycles_sp, setPC_sp, push16_sp, sub_one_sub_one]
    case hi => rw [peek_addCycles, peek_setPC, hhi]
    case lo => rw [peek_addCycles, peek_setPC, hlo]
  case rts =>
    refine ⟨_, exec_rts s, ?pc, ?sp, exec_changesOnly (i := .rts) rfl (exec_rts s) (sameMem_of_ram ?ram []), ?cycles⟩
    case ram => rw [addCycles_ram, setPC_ram, pop16_ram]
    case cycles => rw [addCycles_cycles, setPC_cycles, pop16_cycles]
    case pc => rw [addCycles_pc, setPC_pc, pop16_answer_two]
    case sp => rw [addCycles_sp, setPC_sp, pop16_sp, add_one_add_one]

/-- R63: the word popped does not depend on PC. -/
theorem pop16_setPC (s : State) (w : Word) : (pop16 (s.setPC w)).1 = (pop16 s).1 := rfl

/-- R63: the word popped does not depend on the cycle counter. -/
theorem pop16_addCycles (s : State) (n : Nat) : (pop16 (s.addCycles n)).1 = (pop16 s).1 := rfl

/-- Settles O55: RTS pops the word JSR pushed, the address before the one after the JSR. -/
theorem rtsReturnsToAfterJsr : Obligations.RtsReturnsToAfterJsr := by
  intro w s hflat
  refine ⟨_, _, exec_jsr w s, exec_rts _, ?pc, ?sp⟩
  case pc => rw [addCycles_pc, setPC_pc, pop16_addCycles, pop16_setPC, pop16_push16_value hflat, BitVec.sub_add_cancel]
  case sp => rw [addCycles_sp, setPC_sp, pop16_sp, addCycles_sp, setPC_sp, ← pop16_sp, pop16_push16_sp]

/-! ## Interrupt entry (R254, R277) -/

/-- R254, R277: the three stack bytes of an interrupt entry are three bytes, also where SP wraps. -/
theorem stackByte_ne_third (sp : Byte) :
    word16 1 sp ≠ word16 1 (sp - 2) ∧ word16 1 (sp - 1) ≠ word16 1 (sp - 2) := by
  constructor <;> intro h <;> obtain ⟨-, hsp⟩ := word16_inj.1 h <;> bv_omega

section
variable {r w : Word} {v : Byte} {n : Nat} {s t : State} (ht : t = (enterInterrupt r v w s).addCycles n)
include ht

/-- R254, R277: what interrupt entry and its cost leave in the stack bytes, SP, I and PC, for a vector outside the stack
page. -/
theorem enterInterrupt_entered (hw : w.hi ≠ 1) (hw' : (w + 1).hi ≠ 1) :
    peek t (word16 1 s.sp) = r.hi ∧ peek t (word16 1 (s.sp - 1)) = r.lo ∧ peek t (word16 1 (s.sp - 2)) = v ∧
    t.sp = s.sp - 3 ∧ t.flag .I = true ∧ t.pc = word16 (s.nthAnswer 1 (w + 1)) (s.nthAnswer 0 w) := by
  obtain ⟨h02, h12⟩ := stackByte_ne_third s.sp
  subst ht
  refine ⟨?hi, ?lo, ?status, ?sp, ?flagI, ?pc⟩
  case hi => rw [peek_addCycles, peek_enterInterrupt, if_neg h02, if_neg (stackByte_ne_next s.sp), if_pos rfl]
  case lo => rw [peek_addCycles, peek_enterInterrupt, if_neg h12, if_pos rfl]
  case status => rw [peek_addCycles, peek_enterInterrupt, if_pos rfl]
  case sp => rw [addCycles_sp, enterInterrupt_sp, sub_one_sub_one s.sp, sub_two_sub_one]
  case flagI => rw [addCycles_flag, enterInterrupt_flag, if_pos rfl]
  case pc => rw [addCycles_pc, enterInterrupt_pc r v s hw hw']

/-- R254, R277: interrupt entry itself counts no cycle. -/
theorem enterInterrupt_cost : t.cycles = s.cycles + n := by
  rw [ht, addCycles_cycles, enterInterrupt_cycles]

/-- R254, R277: interrupt entry leaves every byte but its three stack bytes. -/
theorem enterInterrupt_sameMem : SameMemExcept [word16 1 s.sp, word16 1 (s.sp - 1), word16 1 (s.sp - 2)] s t := by
  intro a ha
  simp only [List.mem_cons, List.not_mem_nil, or_false, not_or] at ha
  obtain ⟨h0, h1, h2⟩ := ha
  rw [ht, peek_addCycles, peek_enterInterrupt, if_neg h2, if_neg h1, if_neg h0]

end

/-- R254: BRK enters with the address of its opcode plus 2 and P with Break and Unused set. -/
theorem exec_brk (s : State) :
    exec .brk s = .next ((enterInterrupt (s.pc - 1 + 2) (s.status ||| 0x30) irqVector s).addCycles 7) := rfl

/-- Settles O52: BRK is an interrupt entry through the IRQ vector. -/
theorem brkEntersThroughTheIrqVector : Obligations.BrkEntersThroughTheIrqVector := by
  refine ⟨by decide, fun s => ?_⟩
  obtain ⟨hhi, hlo, hstatus, hsp, hI, hpc⟩ :=
    enterInterrupt_entered (w := irqVector) (s := s) rfl (by decide) (by decide)
  exact ⟨_, exec_brk s, hhi, hlo, hstatus, hsp, hI, hpc,
    exec_changesOnly (i := .brk) rfl (exec_brk s) (enterInterrupt_sameMem rfl), enterInterrupt_cost rfl⟩

/-! ## Return from interrupt (R255) -/

/-- R255: RTI is the return from interrupt. -/
theorem exec_rti (s : State) : exec .rti s = .next ((returnFromInterrupt s).addCycles 6) := rfl

/-- R255: three pops give SP three more. -/
theorem returnFromInterrupt_sp (s : State) : (returnFromInterrupt s).sp = s.sp + 3 := by
  rw [returnFromInterrupt_eq, setPC_sp, pop16_sp, setP_sp, pop8_sp, add_one_add_one s.sp, add_two_add_one]

/-- R255: status is the byte popped first, with Unused 1. -/
theorem returnFromInterrupt_status (s : State) :
    (returnFromInterrupt s).status = s.nthAnswer 0 (word16 1 (s.sp + 1)) ||| 0x20 := by
  rw [returnFromInterrupt_eq, setPC_status, pop16_status, setP_status, pop8_answer]; rfl

/-- R255: every flag but Unused is the bit popped, Break among them. -/
theorem returnFromInterrupt_flag (s : State) (f : Flag) : (returnFromInterrupt s).flag f =
    if f = .U then true else (s.nthAnswer 0 (word16 1 (s.sp + 1))).getLsbD f.bit := by
  rw [returnFromInterrupt_eq, setPC_flag, pop16_flag, setP_flag, pop8_answer]

/-- R255: PC is the word popped after the status byte, with no increment. -/
theorem returnFromInterrupt_pc (s : State) : (returnFromInterrupt s).pc =
    word16 (s.nthAnswer 2 (word16 1 (s.sp + 3))) (s.nthAnswer 1 (word16 1 (s.sp + 2))) := by
  have later : ∀ k a, ((pop8 s).2.setP (pop8 s).1).nthAnswer k a = s.nthAnswer (k + 1) a := pop8_nthAnswer s
  rw [returnFromInterrupt_eq, setPC_pc, pop16_answer, later, later, setP_sp, pop8_sp, add_one_add_one s.sp,
    add_two_add_one]

/-- Settles O53: RTI pops the status byte, then PC. -/
theorem rtiRestoresStatusAndPC : Obligations.RtiRestoresStatusAndPC := by
  refine ⟨by decide, fun s => ⟨_, exec_rti s, ?status, fun f hU => ?flags, ?pc, ?sp,
    exec_changesOnly (i := .rti) rfl (exec_rti s) (sameMem_of_ram ?ram []), ?cycles⟩⟩
  case status => rw [addCycles_status, returnFromInterrupt_status]
  case flags => rw [addCycles_flag, returnFromInterrupt_flag, if_neg hU]
  case pc => rw [addCycles_pc, returnFromInterrupt_pc]
  case sp => rw [addCycles_sp, returnFromInterrupt_sp]
  case ram => simp [returnFromInterrupt_eq]
  case cycles => simp [returnFromInterrupt_eq]

/-! ## Entry and return (R255, R278) -/

@[simp] theorem enterInterrupt_answers (r : Word) (v : Byte) (w : Word) (s : State) :
    (enterInterrupt r v w s).answers = s.answers.tail.tail := by
  simp [enterInterrupt_eq]

/-- R254, R277: a status byte pushed with Break as `b` and Unused 1, flag by flag. -/
theorem pushedStatus_bit (s : State) (b : Bool) (f : Flag) :
    (withUnused (putFlag .B b s.status)).getLsbD f.bit = if f = .B then b else s.flag f := by
  rw [withUnused_bit, putFlag_bit]
  change (if f = .U then true else if f = .B then b else s.flag f) = _
  cases f <;> simp

/-- R255, R278: on a flat bus RTI undoes an interrupt entry: PC is the address pushed, SP and every flag but Break are as
before the entry, and Break is as pushed. -/
theorem rti_enterInterrupt {r w : Word} {b : Bool} {n : Nat} {s t : State} (hflat : s.FlatBus) (hw : w.hi ≠ 1)
    (hw' : (w + 1).hi ≠ 1) (ht : t = (enterInterrupt r (withUnused (putFlag .B b s.status)) w s).addCycles n) :
    ∃ u, exec .rti t = .next u ∧ u.pc = r ∧ u.sp = s.sp ∧ u.flag .B = b ∧ SameFlagsExcept [.B] s u := by
  obtain ⟨hhi, hlo, hstatus, hsp, -, -⟩ := enterInterrupt_entered ht hw hw'
  have hflat' : t.FlatBus := by simp [ht, State.FlatBus, show s.answers = [] from hflat]
  have hram : ∀ k a, t.nthAnswer k a = peek t a := nthAnswer_flat hflat'
  have h1 : t.sp + 1 = s.sp - 2 := by rw [hsp]; bv_omega
  have h2 : t.sp + 2 = s.sp - 1 := by rw [hsp]; bv_omega
  have h3 : t.sp + 3 = s.sp := by rw [hsp]; bv_omega
  have hflag : ∀ f, (returnFromInterrupt t).flag f = if f = .U then true else if f = .B then b else s.flag f := by
    intro f
    rw [returnFromInterrupt_flag, hram, h1, hstatus, pushedStatus_bit]
  refine ⟨_, exec_rti t, ?pc, ?sp, hflag .B, fun f hf => ?flags⟩
  case pc => rw [addCycles_pc, returnFromInterrupt_pc, hram, hram, h2, h3, hhi, hlo, word16_hi_lo]
  case sp => rw [addCycles_sp, returnFromInterrupt_sp, h3]
  case flags =>
    rw [addCycles_flag, hflag, if_neg (mt List.mem_singleton.2 hf)]
    split
    · next hU => rw [hU, flag_U]
    · rfl

/-- R243, R254: Break and Unused set is a write of 1 to Break, with Unused 1. -/
theorem or_breakAndUnused (p : Byte) : p ||| 0x30 = withUnused (putFlag .B true p) := (BitVec.or_assoc p 0x10 0x20).symm

/-- Settles O56: BRK enters with Break 1, and RTI undoes the entry. -/
theorem rtiReturnsFromBrk : Obligations.RtiReturnsFromBrk := by
  intro s hflat
  have hr : s.pc - 1 + 2 = s.pc + 1 := by bv_omega
  have hbrk := exec_brk s
  rw [hr, or_breakAndUnused] at hbrk
  obtain ⟨u, hrti⟩ :=
    rti_enterInterrupt (r := s.pc + 1) (b := true) (w := irqVector) hflat (by decide) (by decide) rfl
  exact ⟨_, u, hbrk, hrti⟩

end Sys2Proof.Machine
end

section
/-! SUPPORT. The family of 60_exceptions.md: the unknown-opcode fault, the halted core and interrupt service, and the
proofs of its statements. -/

namespace Sys2Proof.Machine

/-! ## The unknown-opcode fault (R270 to R272) -/

/-- R270: a live core that fetches a byte without a row latches it. -/
theorem stepCall_unassigned {s : State} (hs : s.Live) (h : lookup (s.busAnswer s.pc) = none) :
    stepCall s =
      .halted ((fetchByte s).2.latch ⟨s.busAnswer s.pc, s.pc⟩) (.unknownOpcode ⟨s.busAnswer s.pc, s.pc⟩) := by
  rw [stepCall_live hs]
  obtain ⟨-, hrun⟩ | ⟨i, hbytes, -⟩ := fetchAndRun_cases s
  · exact hrun
  · rw [busAnswer_pc_of_fetchBytes hbytes, lookup_opcode] at h
    cases h

/-- R270, R271: a fault of `step()` is the latched one again, or that of a byte without a row. -/
theorem step_fault {s : State} {f : Fault} (h : step s = .fault f) :
    (∃ r, s.fault = some r ∧ f = .unknownOpcode r) ∨
    (lookup (s.busAnswer s.pc) = none ∧ f = .unknownOpcode ⟨s.busAnswer s.pc, s.pc⟩) := by
  unfold step at h
  obtain ⟨-, hr⟩ | ⟨r, -, hf, hr⟩ | ⟨-, hl, hr⟩ | ⟨-, i, t, -, -, hr⟩ := stepCall_cases s <;>
    rw [hr] at h <;> cases h
  · exact .inl ⟨r, hf, rfl⟩
  · exact .inr ⟨hl, rfl⟩

/-- Settles O10: a live step faults on a byte without a row alone, and a fault of `step()` names an unknown opcode. -/
theorem unassignedByteHaltsTheCore : Obligations.UnassignedByteHaltsTheCore := by
  refine ⟨fun s hs hop => ?halts, fun s f hs h => ?only, fun s op h => ?never⟩
  case halts =>
    have hcall := stepCall_unassigned hs ((mem_unassignedBytes _).1 hop)
    exact ⟨by rw [step, hcall]; rfl, _, hcall, by rw [fetchByte_state]; rfl⟩
  case only =>
    obtain ⟨r, hr, -⟩ | ⟨hl, rfl⟩ := step_fault h
    · rw [hs.2] at hr
      cases hr
    · exact ⟨rfl, (mem_unassignedBytes _).2 hl⟩
  case never => obtain ⟨r, -, hf⟩ | ⟨-, hf⟩ := step_fault h <;> cases hf

/-! ## A halted core (R271, R287) -/

/-- R287: interrupt service on a halted core returns the latched fault and leaves the state. -/
theorem serviceInterrupt_halted {s : State} {r : UnknownOpcode} (h : s.created = true) (hf : s.fault = some r)
    (k : InterruptKind) : serviceInterrupt k s = .halted s (.unknownOpcode r) := by
  simp [serviceInterrupt, h, hf]

/-- Settles O11: both entry points test the latch first, and reset clears it. -/
theorem haltedCoreStaysHaltedUntilReset : Obligations.HaltedCoreStaysHaltedUntilReset := by
  intro s r k h hf
  have hcall := stepCall_halted h hf
  exact ⟨hcall, by rw [step, hcall]; rfl, serviceInterrupt_halted h hf k, resetCall_fault s⟩

/-! ## Interrupt service (R276, R277) -/

/-- R276: an IRQ request while I = 1 is masked. -/
theorem serviceInterrupt_masked {s : State} (hs : s.Live) (hI : s.flag .I = true) :
    serviceInterrupt .irq s = .masked s := by
  simp [serviceInterrupt, hs.1, hs.2, hI]

/-- R276, R277: a request that I does not mask is taken. -/
theorem serviceInterrupt_taken {k : InterruptKind} {s : State} (hs : s.Live) (h : k = .irq → s.flag .I = false) :
    serviceInterrupt k s = .ok (takeInterrupt k s) 7 := by
  have hmask : ¬ (k = .irq ∧ s.flag .I = true) := fun ⟨hk, hI⟩ => by simp [h hk] at hI
  simp only [serviceInterrupt, hs.1, hs.2, if_true, if_neg hmask]

/-- Settles O14: IRQ is masked or taken by I, and NMI is taken. -/
theorem irqIsMaskedByIAndNmiIsNot : Obligations.IrqIsMaskedByIAndNmiIsNot := fun _ hs =>
  ⟨serviceInterrupt_masked hs, fun hI => ⟨_, serviceInterrupt_taken hs fun _ => hI⟩,
    ⟨_, serviceInterrupt_taken hs nofun⟩⟩

/-- R59: no interrupt vector lies in the stack page. -/
theorem vector_hi_ne_one (k : InterruptKind) : k.vector.hi ≠ 1 ∧ (k.vector + 1).hi ≠ 1 := by cases k <;> decide

/-- R277: the frame of an interrupt that is taken. -/
theorem takeInterrupt_changesOnly (k : InterruptKind) (s : State) :
    ChangesOnly [.SP, .PC] [.I] [word16 1 s.sp, word16 1 (s.sp - 1), word16 1 (s.sp - 2)] s (takeInterrupt k s) := by
  refine ⟨fun r hr => ?regs, takeInterrupt_sameFlags k s, enterInterrupt_sameMem rfl, ?latch⟩
  case regs =>
    simp only [List.mem_cons, List.not_mem_nil, or_false, not_or] at hr
    obtain ⟨hsp, hpc⟩ := hr
    rw [takeInterrupt, addCycles_reg, enterInterrupt_reg hsp hpc]
  case latch => simp [SameLatch, takeInterrupt]

/-- R277: an interrupt that is taken makes the five accesses of its entry. -/
theorem takeInterrupt_transacts (k : InterruptKind) (s : State) :
    Transacts [(true, word16 1 s.sp), (true, word16 1 (s.sp - 1)), (true, word16 1 (s.sp - 2)), (false, k.vector),
      (false, k.vector + 1)] s (takeInterrupt k s) :=
  (enterInterrupt_transacts s.pc (pushedByInterrupt s.status) k.vector s).congr (addCycles_log _ 7)

/-- Settles O15: an interrupt that is taken is an interrupt entry through its vector. -/
theorem interruptEntryPushesAndVectors : Obligations.InterruptEntryPushesAndVectors := by
  intro k s hs hI v
  have hv : v = k.vector := by cases k <;> rfl
  clear_value v
  subst hv
  obtain ⟨hw, hw'⟩ := vector_hi_ne_one k
  obtain ⟨hhi, hlo, hstatus, hsp, hflag, hpc⟩ := enterInterrupt_entered (t := takeInterrupt k s) rfl hw hw'
  obtain ⟨haccesses, -⟩ := (takeInterrupt_transacts k s).newAccesses_eq
  exact ⟨_, serviceInterrupt_taken hs hI, hhi, hlo, hstatus, hsp, hflag, hpc, enterInterrupt_cost rfl, haccesses,
    takeInterrupt_changesOnly k s⟩

/-- Settles O57: the service enters with Break 0, and RTI undoes the entry. -/
theorem rtiReturnsFromInterrupt : Obligations.RtiReturnsFromInterrupt := by
  intro k s hflat hs hI
  obtain ⟨hw, hw'⟩ := vector_hi_ne_one k
  obtain ⟨u, hrti⟩ := rti_enterInterrupt (b := false) (t := takeInterrupt k s) hflat hw hw' rfl
  exact ⟨_, u, serviceInterrupt_taken hs hI, hrti⟩

end Sys2Proof.Machine
end

section
/-! SUPPORT. The family of 70_reset_and_hazards.md: the state reset gives, the table of base cycle counts, and the proofs
of its statements. -/

namespace Sys2Proof.Machine

/-- R302: after reset I and Unused are set and every other flag is clear. -/
theorem resetCall_flag (s : State) (f : Flag) : (resetCall s).flag f = decide (f = .I ∨ f = .U) := by
  rw [flag_eq, resetCall_p]
  cases f <;> rfl

/-- R302: the status byte after reset. -/
theorem resetCall_status (s : State) : (resetCall s).status = 0x24 := by
  rw [State.status, resetCall_p]; rfl

/-- R300: reset's two transactions are the reads of its vector. -/
theorem resetCall_log_eq (s : State) : (resetCall s).log =
    [.read 0xFFFD (s.nthAnswer 1 0xFFFD), .read 0xFFFC (s.nthAnswer 0 0xFFFC)] ++ s.log := by
  rw [resetCall_log, read16_log, busAnswer_eq_nthAnswer, busAnswer_eq_nthAnswer, read8_nthAnswer]; rfl

/-- Settles O13: PC is the word read at the RESET vector, and every other register is a constant. -/
theorem resetEstablishesTheResetState : Obligations.ResetEstablishesTheResetState := by
  intro s
  have hflag := resetCall_flag s
  exact ⟨_, rfl, read16_answer resetVector s, rfl, rfl, rfl, resetCall_sp s, resetCall_status s,
    ⟨hflag .I, hflag .U, hflag .C, hflag .Z, hflag .D, hflag .B, hflag .V, hflag .N⟩, rfl, resetCall_fault s,
    resetCall_created s, resetCall_ram s, resetCall_log_eq s⟩

/-- Settles O30: the count depends on the mnemonic and the mode alone, and is evaluated at every legal mode of each
mnemonic. -/
theorem baseCyclesByModeAndClass : Obligations.BaseCyclesByModeAndClass := by
  intro i
  have hlegal : i.mode ∈ legalModes i.mnemonic := mode_legal i
  rw [Instr.baseCycles, Instr.operandClass]
  revert hlegal
  generalize i.mode = mode, i.mnemonic = m
  revert mode
  cases m <;> decide +kernel

end Sys2Proof.Machine
end
